-- ==== Sys2Proof/Word.lean ====
section
/-! DEFINITION. The word types of the block (00_scope.md R9, R12): serial bytes and 16-bit values. -/

namespace Sys2Proof

/-- `u8`: a serial byte is 8 bits (R9). -/
abbrev Byte := BitVec 8

/-- `u16`: quantity, start address, CRC (R9). -/
abbrev Half := BitVec 16

/-- `s16`: a sample, held as its 16-bit two's-complement pattern `asU16(v)` (R9, R12).
Two's complement is the spec's GK2 (marked there as general knowledge). -/
abbrev S16 := BitVec 16

end Sys2Proof
end

