-- ==== Sys2Proof/Config.lean ====
section
/-! DEFINITION. The parameters of the block: the constants the spec fixes (00_scope.md R7) and the
configuration constants it leaves to the integrator (R8, 10_state.md R19). -/

namespace Sys2Proof

/-- `REQ_LEN`: bytes in a request frame (R7). -/
abbrev reqLen : Nat := 8

/-- `FUNC_RIR`: the only supported function code, read input registers (R7). -/
abbrev funcRir : Byte := 0x04#8

/-- `REG_COUNT`: 4 cell voltages, 1 current, 2 temperatures (R7). -/
abbrev regCount : Nat := 7

/-- `CRC_INIT` (R7). -/
abbrev crcInit : Half := 0xFFFF#16

/-- `CRC_POLY`: the reflected constant XORed in on a 1 shifted out (R7, R81). -/
abbrev crcPoly : Half := 0xA001#16

/-- `CRC_SPAN_REQ`: request bytes covered by the CRC (R7). -/
abbrev crcSpanReq : Nat := 6

/-- `RESP_COUNT_MODE` (R8, R54): how many registers answer an accepted request for `q` registers. -/
inductive RespCountMode where
  /-- the requested quantity `q` (the spec's default, D13) -/
  | requested
  /-- always all seven registers -/
  | fixed7
deriving DecidableEq, Repr

/-- The configuration constants of R8 and R19: set before reset is released, fixed for a whole execution.
A theorem over all states holds for every value of every one of them.
The defaults are the values R7 and R8 give this hardware. -/
structure Config where
  /-- `SLAVE_ADDR`; OPEN in the spec, default 0x01 (D2) -/
  slaveAddr : Byte := 0x01#8
  /-- `V_CELL_MAX` in mV -/
  vCellMax : S16 := 3650#16
  /-- `I_MAX` in mA -/
  iMax : S16 := 10000#16
  /-- `T_MIN` in degrees Celsius, -20 -/
  tMin : S16 := BitVec.ofInt 16 (-20)
  /-- `T_MAX` in degrees Celsius -/
  tMax : S16 := 40#16
  /-- `RESP_COUNT_MODE`; OPEN in the spec, default REQUESTED (D13) -/
  respCountMode : RespCountMode := .requested
  /-- `RST_FAULT`: `fault_en` between reset and the first sample load (D10) -/
  rstFault : Bool := true
  /-- `POLL_INTERVAL` in ms, about 100; timing only, no rule depends on it (R8, R163) -/
  pollIntervalMs : Nat := 100
  /-- `SETTLE_TIME`; the spec gives no value; timing only, no rule depends on it (R8, R163) -/
  settleTimeMs : Option Nat := none
deriving DecidableEq, Repr

/-- The configuration of this hardware: every default of R7 and R8. -/
def Config.default : Config := {}

end Sys2Proof
end

