-- ==== Sys2Proof/Syntax.lean ====
section
/-! DEFINITION. The operations of the block as data: one constructor of `Instr` per row of
spec/opcode_table.json, the records they take as operands, and `Stim`, the raw stimulus the block
is presented with (30_encoding.md R47, R49, R60, R62). -/

namespace Sys2Proof

/-- A sample set `{cell[0..3], current, temp[0..1]}` (44_protection.md R99), which is also the shape of
the sample register file: `x[0..3]` are `cell0..cell3`, `x[4]` is `current`, `x[5..6]` are `temp0`, `temp1`
(20_memory.md R36). -/
structure SampleSet where
  cell0 : S16
  cell1 : S16
  cell2 : S16
  cell3 : S16
  current : S16
  temp0 : S16
  temp1 : S16
deriving DecidableEq, Repr

/-- A complete request frame, format REQ8, bytes 0 to 7 in transmission order (R47). -/
structure Frame where
  address : Byte
  function : Byte
  startHi : Byte
  startLo : Byte
  qtyHi : Byte
  qtyLo : Byte
  crcLo : Byte
  crcHi : Byte
deriving DecidableEq, Repr

/-- Result of `VALIDATE` (42_frame_validator.md R83). -/
inductive Verdict where
  | accept (q : Half)
  | crcMismatch
  | unsupportedRequest (q : Half) (fc : Byte)
deriving DecidableEq, Repr

/-- The operations, one constructor per row of spec/opcode_table.json, in the table's order (00_scope.md R11, R64). -/
inductive Instr where
  /-- RIR: read input registers, address `a`, start address `ss`, quantity `qq`, CRC bytes (R49, R86) -/
  | rir (a : Byte) (ss qq : Half) (lo hi : Byte)
  /-- BAD_CRC: eight bytes for this slave whose CRC is wrong (R49, R84) -/
  | badCrc (a f : Byte) (ss qq : Half) (lo hi : Byte)
  /-- UNSUPPORTED: CRC right, quantity above 7 or function not 0x04 (R49, R85) -/
  | unsupported (a f : Byte) (ss qq : Half) (lo hi : Byte)
  /-- FOREIGN: a first byte that is not `SLAVE_ADDR`, and the bytes that follow it before `SERVICE` (R49, R68, R70) -/
  | foreign (a : Byte) (rest : List Byte)
  /-- INCOMPLETE: `SLAVE_ADDR` and at most six further bytes (R49, R116) -/
  | incomplete (a : Byte) (rest : List Byte)
  /-- RSP: the response frame with address `a` and these register values (R52, R90) -/
  | rsp (a : Byte) (regs : List S16)
  /-- RESET (R144) -/
  | reset
  /-- RX_BYTE b (R67) -/
  | rxByte (b : Byte)
  /-- SAMPLE_LOAD s (R99) -/
  | sampleLoad (smp : SampleSet)
  /-- SERVICE (R114) -/
  | service
  /-- CYCLE s (R119) -/
  | cycle (smp : SampleSet)
  /-- REQ a f ss qq (R62) -/
  | req (a f : Byte) (ss qq : Half)
  /-- ADDR_FILTER b (R68) -/
  | addrFilter (b : Byte)
  /-- COLLECT b (R69) -/
  | collect (b : Byte)
  /-- CRC16_INIT (R74) -/
  | crc16Init
  /-- CRC16_UPDATE c b (R75) -/
  | crc16Update (c : Half) (b : Byte)
  /-- CRC16 m (R76) -/
  | crc16 (m : List Byte)
  /-- CRC_CHECK f (R77) -/
  | crcCheck (f : Frame)
  /-- VALIDATE f (R83) -/
  | validate (f : Frame)
  /-- RESP_BUILD a n x, register count `n` in 0..7 (R90) -/
  | respBuild (a : Byte) (n : Fin 8) (x : SampleSet)
  /-- TRANSMIT r (R93) -/
  | transmit (r : List Byte)
  /-- PROTECT s (R100) -/
  | protect (smp : SampleSet)
  /-- DRIVE_OUTPUTS f (R101) -/
  | driveOutputs (f : Bool)
  /-- RECOVER (R109) -/
  | recover
  /-- REARM (R110) -/
  | rearm
deriving DecidableEq, Repr

/-- What the environment presents to the block, one item at a time, as raw words (the model's rendering of the
agents LINE, SENSE and HOST of R10; assumption log 2). -/
inductive Stim where
  /-- one clock edge with the strobe vector `ev = {rst, rx_valid, smp_valid}` (bit 2 is `rst`), `rx_data` and the
  sample ports (R60) -/
  | edge (ev : BitVec 3) (rxData : Byte) (smp : SampleSet)
  /-- bytes on the serial line back to back, at least one, up to MAIN's service of them (R49, R62) -/
  | line (first : Byte) (rest : List Byte)
  /-- the script line `CYCLE s` (R62, R63) -/
  | cycle (smp : SampleSet)
  /-- the script line `REQ a f ss qq` (R62, R63) -/
  | req (a f : Byte) (ss qq : Half)
deriving DecidableEq, Repr

end Sys2Proof
end

