-- ==== Sys2Proof/Machine/Operands.lean ====
section
/-! DEFINITION. Operand forms: byte order, field assembly of frames, and the register view of a sample set
(20_memory.md R33, R34, R36; 30_encoding.md R47, R48, R52, R53). Pure functions, no state. -/

namespace Sys2Proof.Machine

/-- `v[15:8]`. -/
def hiByte (v : Half) : Byte := v.extractLsb' 8 8

/-- `v[7:0]`. -/
def loByte (v : Half) : Byte := v.extractLsb' 0 8

/-- `a ++ b` of two bytes: `a` in the high bits (R12). -/
def joinBytes (a b : Byte) : Half := a ++ b

/-- A request frame from its fields: start address and quantity big-endian, CRC low byte first (R33, R47). -/
def mkFrame (a f : Byte) (ss qq : Half) (lo hi : Byte) : Frame :=
  { address := a, function := f, startHi := hiByte ss, startLo := loByte ss,
    qtyHi := hiByte qq, qtyLo := loByte qq, crcLo := lo, crcHi := hi }

/-- The six bytes covered by the CRC, `f[0..5]` (R7 `CRC_SPAN_REQ`, R77). -/
def frameHead (f : Frame) : List Byte :=
  [f.address, f.function, f.startHi, f.startLo, f.qtyHi, f.qtyLo]

/-- The eight bytes in transmission order (R47). -/
def frameBytes (f : Frame) : List Byte := frameHead f ++ [f.crcLo, f.crcHi]

/-- `startAddr = f[2] ++ f[3]`; no rule uses it (R37, R48). -/
def startAddrOf (f : Frame) : Half := joinBytes f.startHi f.startLo

/-- `quantity = f[4] ++ f[5]`, unsigned (R48). -/
def quantityOf (f : Frame) : Half := joinBytes f.qtyHi f.qtyLo

/-- `crcRx = f[7] ++ f[6]` (R48). -/
def crcRxOf (f : Frame) : Half := joinBytes f.crcHi f.crcLo

/-- The registers `x[0], ..., x[6]` in the fixed order of R36. -/
def regsOf (x : SampleSet) : List S16 :=
  [x.cell0, x.cell1, x.cell2, x.cell3, x.current, x.temp0, x.temp1]

/-- Register values as payload bytes, each high byte first (R52, R53, R91). -/
def payloadOf : List S16 → List Byte
  | [] => []
  | v :: vs => hiByte v :: loByte v :: payloadOf vs

/-- A payload read back as registers, high byte first (R91); `none` for an odd number of bytes. -/
def regsOfPayload : List Byte → Option (List S16)
  | [] => some []
  | [_] => none
  | h :: l :: rest => (regsOfPayload rest).map (joinBytes h l :: ·)

/-- `n` of an accepted request with quantity `q` (R54). -/
def respCount (mode : RespCountMode) (q : Half) : Nat :=
  match mode with
  | .requested => q.toNat
  | .fixed7 => regCount

/-- Byte `i` (byte 0 most significant) of a `len`-byte word of spec/opcode_table.json (R64). -/
def tableByte (len i w : Nat) : Byte := BitVec.ofNat 8 (w >>> (8 * (len - 1 - i)))

end Sys2Proof.Machine
end

