-- ==== Sys2Proof/Machine/Crc16.lean ====
section
/-! DEFINITION. The CRC-16/MODBUS engine as pure functions (41_crc16.md R74 to R78). -/

namespace Sys2Proof.Machine

/-- One iteration: shift right by one, XOR `CRC_POLY` if the bit shifted out was 1 (R75). -/
def crcShift (c : Half) : Half :=
  if c.getLsbD 0 then (c >>> 1) ^^^ crcPoly else c >>> 1

/-- `n` iterations of `crcShift`. -/
def crcShiftN : Nat → Half → Half
  | 0, c => c
  | n + 1, c => crcShiftN n (crcShift c)

/-- `CRC16_UPDATE(c, b)` (R75): the byte enters the low 8 bits, then eight iterations. -/
def crcUpdate (c : Half) (b : Byte) : Half := crcShiftN 8 (c ^^^ b.setWidth 16)

/-- `CRC16(m)` (R76): no final XOR, no final reflection. -/
def crcOf (m : List Byte) : Half := m.foldl crcUpdate crcInit

/-- A sequence followed by its CRC, low byte first (R78). -/
def appendCrc (m : List Byte) : List Byte := m ++ [loByte (crcOf m), hiByte (crcOf m)]

end Sys2Proof.Machine
end

