-- ==== Sys2Proof/Machine/Checks.lean ====
section
/-! DEFINITION. `CRC_CHECK`, `VALIDATE` and the response frame as pure functions of their operands
(41_crc16.md R77, 42_frame_validator.md R83, 30_encoding.md R52, 43_response_builder.md R90). -/

namespace Sys2Proof.Machine

/-- `CRC_CHECK(f)` (R77): the CRC of `f[0..5]` stands in `f[6]` (low) and `f[7]` (high). -/
def crcCheck (f : Frame) : Bool :=
  decide (loByte (crcOf (frameHead f)) = f.crcLo ∧ hiByte (crcOf (frameHead f)) = f.crcHi)

/-- The rejection test of R83: `q >u REG_COUNT or fc != FUNC_RIR`. -/
def unsupportedFields (f : Frame) : Bool :=
  decide (regCount < (quantityOf f).toNat ∨ f.function ≠ funcRir)

/-- `VALIDATE(f)` (R83): the CRC first, then quantity and function together. -/
def verdictOf (f : Frame) : Verdict :=
  if crcCheck f then
    if unsupportedFields f then .unsupportedRequest (quantityOf f) f.function
    else .accept (quantityOf f)
  else .crcMismatch

/-- The response frame RSP with address `a` and register values `regs` (R52, R53):
address, 0x04, byte count, registers high byte first, CRC low byte then high byte. -/
def rspFrame (a : Byte) (regs : List S16) : List Byte :=
  appendCrc ([a, funcRir, BitVec.ofNat 8 (2 * regs.length)] ++ payloadOf regs)

/-- `RESP_BUILD(a, n, x)` (R90): the response carrying `x[0..n-1]`. -/
def respBuild (a : Byte) (n : Nat) (x : SampleSet) : List Byte := rspFrame a ((regsOf x).take n)

/-- The request bytes of `REQ a f ss qq` (R62): the CRC is that of the first six bytes. -/
def reqFrame (a f : Byte) (ss qq : Half) : Frame :=
  let c := crcOf (frameHead (mkFrame a f ss qq 0 0))
  mkFrame a f ss qq (loByte c) (hiByte c)

end Sys2Proof.Machine
end

