-- ==== Sys2Proof/WellFormed.lean ====
section
/-! DEFINITION. Which terms of `Instr` are operations of the block: the constraints that
spec/opcode_table.json and the operand paragraphs of the rules put on the operands (30_encoding.md R49, R64). -/

namespace Sys2Proof

/-- The constraints of an operation on a block with slave address `addr`. -/
def Instr.wf (addr : Byte) : Instr → Bool
  -- R49 RIR: a = SLAVE_ADDR, CRC right, q <= 7
  | .rir a ss qq lo hi =>
    decide (a = addr) && Machine.crcCheck (Machine.mkFrame a funcRir ss qq lo hi) && decide (qq.toNat ≤ regCount)
  -- R49 BAD_CRC: a = SLAVE_ADDR, CRC wrong; f, s, q any value
  | .badCrc a f ss qq lo hi =>
    decide (a = addr) && !Machine.crcCheck (Machine.mkFrame a f ss qq lo hi)
  -- R49 UNSUPPORTED: a = SLAVE_ADDR, CRC right, q > 7 or f != 0x04
  | .unsupported a f ss qq lo hi =>
    decide (a = addr) && Machine.crcCheck (Machine.mkFrame a f ss qq lo hi)
      && decide (regCount < qq.toNat ∨ f ≠ funcRir)
  -- R49 FOREIGN: a != SLAVE_ADDR
  | .foreign a _ => decide (a ≠ addr)
  -- R49 INCOMPLETE: a = SLAVE_ADDR, fewer than eight bytes
  | .incomplete a rest => decide (a = addr) && decide (rest.length + 1 < reqLen)
  -- R52, R54: register count 0..7
  | .rsp _ regs => decide (regs.length ≤ regCount)
  | .reset => true
  | .rxByte _ => true
  | .sampleLoad _ => true
  | .service => true
  | .cycle _ => true
  | .req _ _ _ _ => true
  | .addrFilter _ => true
  | .collect _ => true
  | .crc16Init => true
  | .crc16Update _ _ => true
  | .crc16 _ => true
  | .crcCheck _ => true
  | .validate _ => true
  | .respBuild _ _ _ => true
  -- R93: a non-empty byte sequence
  | .transmit r => !r.isEmpty
  | .protect _ => true
  | .driveOutputs _ => true
  | .recover => true
  | .rearm => true

end Sys2Proof
end

