-- ==== Sys2Proof/Decode.lean ====
section
/-! DEFINITION. The decoders, total on any words, and the encoders written from the same tables:
event strobes (30_encoding.md R60, R61), the request space (R47 to R51, R56), the transmitted response
stream (R52 to R54), the script pseudo-operations (R62, R63). Functions and micro-operations have no bit
pattern (R64), so no word decodes to one. -/

namespace Sys2Proof

open Machine

/-- Why a stimulus has no meaning. -/
inductive Reject where
  /-- `rx_valid` and `smp_valid` together, without `rst`: outside the contract (R61, U5) -/
  | simultaneousStrobes
deriving DecidableEq, Repr

/-- The seven zero samples: operand words of zeros. -/
def SampleSet.zero : SampleSet := ⟨0, 0, 0, 0, 0, 0, 0⟩

/-- Selection of an event by the strobe vector (R60): `rst` dominates; `0b011` is rejected (R61). -/
def decodeEdge (ev : BitVec 3) (rxData : Byte) (smp : SampleSet) : Except Reject Instr :=
  if ev.getLsbD 2 then .ok .reset
  else if ev = 0b010#3 then .ok (.rxByte rxData)
  else if ev = 0b001#3 then .ok (.sampleLoad smp)
  else if ev = 0b000#3 then .ok .service
  else .error .simultaneousStrobes

/-- The class of a complete eight-byte frame whose first byte matched (R49, in the order of R87). -/
def classOf (f : Frame) : Instr :=
  let ss := startAddrOf f
  let qq := quantityOf f
  match verdictOf f with
  | .accept _ => .rir f.address ss qq f.crcLo f.crcHi
  | .crcMismatch => .badCrc f.address f.function ss qq f.crcLo f.crcHi
  | .unsupportedRequest _ _ => .unsupported f.address f.function ss qq f.crcLo f.crcHi

/-- The request space (R49): the class of the bytes on the line, and the bytes after a complete frame.
The first test is made on the first byte alone. -/
def decodeLine (addr a : Byte) (rest : List Byte) : Instr × List Byte :=
  if a = addr then
    match rest with
    | f :: sh :: sl :: qh :: ql :: lo :: hi :: more => (classOf ⟨a, f, sh, sl, qh, ql, lo, hi⟩, more)
    | _ => (.incomplete a rest, [])
  else (.foreign a rest, [])

/-- Bytes that follow a complete frame are presented next. -/
def lineStim : List Byte → List Stim
  | [] => []
  | b :: bs => [.line b bs]

/-- The decoder of a stimulus: the operation and what is left of the stimulus. -/
def decode (addr : Byte) : Stim → Except Reject (Instr × List Stim)
  | .edge ev rxData smp => (decodeEdge ev rxData smp).map (·, [])
  | .line a rest => .ok ((decodeLine addr a rest).1, lineStim (decodeLine addr a rest).2)
  | .cycle smp => .ok (.cycle smp, [])
  | .req a f ss qq => .ok (.req a f ss qq, [])

/-- The head of a response (R52, the 24-bit pattern `a 04 n` of R64): address and register count;
`none` where the function byte is not 0x04 or the byte count is not 2n with n in 0..7. -/
def decodeRspHead (a fn cnt : Byte) : Option (Byte × Nat) :=
  if fn = funcRir ∧ cnt.toNat % 2 = 0 ∧ cnt.toNat ≤ 2 * regCount then some (a, cnt.toNat / 2) else none

/-- A decoder of the transmitted stream (R54, R91): one whole response, its length told by its third byte,
its last two bytes the CRC of all before them. -/
def decodeRsp : List Byte → Option Instr
  | a :: fn :: cnt :: tail =>
    match decodeRspHead a fn cnt with
    | none => none
    | some (_, n) =>
      if tail.length = 2 * n + 2 ∧ appendCrc (a :: fn :: cnt :: tail.take (2 * n)) = a :: fn :: cnt :: tail then
        (regsOfPayload (tail.take (2 * n))).map (.rsp a)
      else none
  | _ => none

/-- The words of a well-formed operation the environment can present: events (R60), request frames (R47),
script pseudo-operations (R62). `none`: the row has no input encoding (R64). -/
def encode : Instr → Option Stim
  | .rir a ss qq lo hi =>
    some (.line a [funcRir, hiByte ss, loByte ss, hiByte qq, loByte qq, lo, hi])
  | .badCrc a f ss qq lo hi =>
    some (.line a [f, hiByte ss, loByte ss, hiByte qq, loByte qq, lo, hi])
  | .unsupported a f ss qq lo hi =>
    some (.line a [f, hiByte ss, loByte ss, hiByte qq, loByte qq, lo, hi])
  | .foreign a rest => some (.line a rest)
  | .incomplete a rest => some (.line a rest)
  | .rsp _ _ => none
  | .reset => some (.edge 0b100#3 0 .zero)
  | .rxByte b => some (.edge 0b010#3 b .zero)
  | .sampleLoad smp => some (.edge 0b001#3 0 smp)
  | .service => some (.edge 0b000#3 0 .zero)
  | .cycle smp => some (.cycle smp)
  | .req a f ss qq => some (.req a f ss qq)
  | .addrFilter _ => none
  | .collect _ => none
  | .crc16Init => none
  | .crc16Update _ _ => none
  | .crc16 _ => none
  | .crcCheck _ => none
  | .validate _ => none
  | .respBuild _ _ _ => none
  | .transmit _ => none
  | .protect _ => none
  | .driveOutputs _ => none
  | .recover => none
  | .rearm => none

/-- The stimulus a row's word of spec/opcode_table.json stands for (R64): a word below 8 in one byte is the strobe
vector `ev`, any other single byte is a first byte on the line, a 64-bit word is a request frame with byte 0 most
significant. Ports and samples beyond the word's bits are zero. -/
def stimOfTableWord (nbits w : Nat) : Option Stim :=
  if nbits ≤ 8 then
    if w < 8 then some (.edge (BitVec.ofNat 3 w) 0 .zero)
    else some (.line (BitVec.ofNat 8 w) [])
  else if nbits = 64 then
    some (.line (tableByte 8 0 w) ((List.range 7).map fun i => tableByte 8 (i + 1) w))
  else none

/-- The response whose 24-bit head (R64) is `w`, with operand words of zeros: every register 0. -/
def rspOfTableWord (w : Nat) : Option Instr :=
  (decodeRspHead (tableByte 3 0 w) (tableByte 3 1 w) (tableByte 3 2 w)).map
    fun an => .rsp an.1 (List.replicate an.2 0)

/-- What the decoder reads from a row's word of spec/opcode_table.json, on this hardware's slave address. -/
def decodeTableWord (nbits w : Nat) : Option Instr :=
  if nbits = 24 then rspOfTableWord w
  else
    match stimOfTableWord nbits w with
    | none => none
    | some st =>
      match decode Config.default.slaveAddr st with
      | .ok (i, _) => some i
      | .error _ => none

end Sys2Proof
end

