-- ==== Sys2Proof/Machine/State.lean ====
section
/-! DEFINITION. The state of the block as plain data (10_state.md R13 to R30), the reasons a step can stop, and the
state right after reset (70_reset_and_hazards.md R144, R145). -/

namespace Sys2Proof.Machine

/-- `frame_signal` (R14). The code 0b11 is never produced and has no constructor (R14, U1). -/
inductive FrameSignal where
  | idle
  | framePending
  | addressMismatch
deriving DecidableEq, Repr

/-- `seq` (R22): which MAIN step comes next. -/
inductive Seq where
  /-- SEQ_SAMPLE: the next MAIN step is `SAMPLE_LOAD` -/
  | sample
  /-- SEQ_SERVICE: the next MAIN step is `SERVICE` -/
  | service
deriving DecidableEq, Repr

/-- An entry of `tx_log` (R27). -/
inductive TxEvent where
  /-- `DE(1)` or `DE(0)`: transmit-enable asserted or released -/
  | de (on : Bool)
  /-- `TX(b)`: one transmitted byte -/
  | tx (b : Byte)
  /-- `RX_RESET`: the receiver was turned off and on by `RECOVER` -/
  | rxReset
deriving DecidableEq, Repr

/-- An entry of `svc_log` (R27, R124). -/
inductive SvcEvent where
  | responded (q : Half)
  | crcMismatch
  | unsupportedRequest (q : Half) (fc : Byte)
  | addressMismatch
deriving DecidableEq, Repr

/-- The value of the last function-type operation executed on its own (the model's own field, no element of R13;
assumption log 4). -/
inductive FnResult where
  | none
  | crc (c : Half)
  | bool (b : Bool)
  | verdict (v : Verdict)
  | bytes (l : List Byte)
deriving DecidableEq, Repr

/-- The frame buffer as cells (index, byte), strictly rising indices; an index not listed holds no value
(20_memory.md R31; assumption log 6). -/
abbrev Memory := List Host.Cell

/-- The state. The first eleven fields are the rows of R13, then the two histories of R27, then the configuration
constants of R19 (fixed, assumption log 1), the environment's pending stimuli (assumption log 2) and the model's
result field (assumption log 4). -/
structure State where
  /-- `frame_signal` (R14) -/
  frameSignal : FrameSignal
  /-- `rx_irq_en`, 1 bit (R15) -/
  rxIrqEn : Bool
  /-- `frame_buf[0..7]` (R16) -/
  frameBuf : Memory
  /-- `byte_cnt`, 4 bits, values 0 to 8 (R17) -/
  byteCnt : BitVec 4
  /-- `x[0..6]`: `cell_mv[0..3]`, `current_ma`, `temp_c[0..1]` (R18, R36) -/
  x : SampleSet
  /-- `normal_en` (R20) -/
  normalEn : Bool
  /-- `fault_en` (R20) -/
  faultEn : Bool
  /-- `tx_en` (R21) -/
  txEn : Bool
  /-- `seq` (R22) -/
  seq : Seq
  /-- `tx_log`, oldest first (R27) -/
  txLog : List TxEvent
  /-- `svc_log`, oldest first (R27) -/
  svcLog : List SvcEvent
  /-- the configuration constants (R19) -/
  cfg : Config
  /-- the stimuli the environment will present, next one first (R10, R60, R62) -/
  stim : List Stim
  /-- the value of the last function-type operation -/
  result : FnResult
deriving DecidableEq, Repr

/-- Why the machine stops with a fault. -/
inductive Fault where
  /-- Raised by the read of a frame-buffer index below 8 that nothing has written (`SERVICE`, frame classes). The spec calls
  it a model fault (D11, U2) that no reachable state shows. Safe: the machine stops where the spec gives no value. -/
  | frameByteUnwritten
  /-- Raised by a bare `COLLECT` with `byte_cnt` of 8 or more: no such index in the frame buffer (R31, R35). Safe. -/
  | frameIndexOutOfRange
  /-- Raised by `SERVICE` and by a step without stimuli while a frame is incomplete: MAIN has no step (R116, U12).
  Safe: a stuck state, named. -/
  | serviceHeldPartialFrame
  /-- Raised by `SERVICE` and by a step without stimuli while `seq = SEQ_SAMPLE`: MAIN waits for a sample set
  (R114, R117). Safe: a stuck state, named. -/
  | awaitingSampleSet
  /-- Raised by `SAMPLE_LOAD` and `CYCLE` while `seq = SEQ_SERVICE`: the step is not enabled (R99, R117).
  Safe: a hold, named. -/
  | sampleLoadHeld
deriving DecidableEq, Repr

/-- Why the machine refuses. -/
inductive Refusal where
  /-- Raised by `exec` for an operation without a meaning yet; no arm answers so. Safe. -/
  | notModelled (mnemonic : String)
  /-- Raised by `step` for `ev = 0b011`: two events at once, outside the contract, no successor state (R61, U5). Safe. -/
  | simultaneousStrobes
deriving DecidableEq, Repr

/-- The machine right after reset (R144, R145) on this hardware's configuration (R7, R8), with nothing presented yet.
The spec gives `frame_buf` and `x[0..6]` no value: no cell is listed, and the sample registers are zero
(DESIGN CHOICE, assumption log 5, unsafe). -/
def State.reset : State :=
  { frameSignal := .idle
    rxIrqEn := true
    frameBuf := []
    byteCnt := 0#4
    x := SampleSet.zero
    normalEn := !Config.default.rstFault
    faultEn := Config.default.rstFault
    txEn := false
    seq := .sample
    txLog := []
    svcLog := []
    cfg := Config.default
    stim := []
    result := .none }

end Sys2Proof.Machine
end

