-- ==== Sys2Proof/Machine/Flags.lean ====
section
/-! DEFINITION. The flag-like elements of the block (10_state.md R24): the conditions that enable a step, the protection
decision, and the numeric codes the spec gives its enumerations (R14, R22, R124). -/

namespace Sys2Proof.Machine

/-- collecting (R12 glossary, R69): the next byte is appended to the frame buffer. -/
abbrev Collecting (s : State) : Prop := s.frameSignal = .framePending ∧ s.byteCnt.toNat < reqLen

/-- The hold of R116: a frame for this slave is incomplete. -/
abbrev PartialFrame (s : State) : Prop := s.frameSignal = .framePending ∧ s.byteCnt.toNat < reqLen

/-- `smp_ready` (R60): `SAMPLE_LOAD` is enabled (R99). -/
abbrev SmpReady (s : State) : Prop := s.seq = .sample

/-- `SERVICE` is enabled (R114). -/
abbrev ServiceEnabled (s : State) : Prop := s.seq = .service ∧ ¬ PartialFrame s

/-- `v >s limit` (R102). -/
def overLimit (v limit : S16) : Bool := limit.slt v

/-- `v <s limit` (R102). -/
def underLimit (v limit : S16) : Bool := v.slt limit

/-- `PROTECT(s)` (R100): nine strict signed comparisons, any one is a fault; no sentinel test (R104). -/
def protectDecision (c : Config) (smp : SampleSet) : Bool :=
  let overV := overLimit smp.cell0 c.vCellMax || overLimit smp.cell1 c.vCellMax
    || overLimit smp.cell2 c.vCellMax || overLimit smp.cell3 c.vCellMax
  let overI := overLimit smp.current c.iMax
  let badT := underLimit smp.temp0 c.tMin || overLimit smp.temp0 c.tMax
    || underLimit smp.temp1 c.tMin || overLimit smp.temp1 c.tMax
  overV || overI || badT

/-- The 2-bit encoding of `frame_signal` (R14, D3). -/
def frameSignalCode : FrameSignal → BitVec 2
  | .idle => 0b00#2
  | .framePending => 0b01#2
  | .addressMismatch => 0b10#2

/-- The encoding of `seq` (R22, D18). -/
def seqCode : Seq → BitVec 1
  | .sample => 0#1
  | .service => 1#1

/-- The code of a service outcome (R124, D4). -/
def conditionCode : SvcEvent → Nat
  | .responded _ => 0
  | .addressMismatch => 1
  | .unsupportedRequest _ _ => 2
  | .crcMismatch => 3

/-- The code of SensorReadError, which the block never detects (R124, R128). -/
def sensorReadErrorCode : Nat := 4

/-- Whether the step an operation stands for can be taken (R122, the guards of spec/opcode_table.json).
Frame classes, `REQ` and operations used only inside a step have no guard of their own. -/
def Enabled (s : State) : Instr → Bool
  | .rir _ _ _ _ _ => true
  | .badCrc _ _ _ _ _ _ => true
  | .unsupported _ _ _ _ _ _ => true
  | .foreign _ _ => true
  | .incomplete _ _ => true
  | .rsp _ _ => true
  | .reset => true
  | .rxByte _ => true
  | .sampleLoad _ => decide (SmpReady s)
  | .service => decide (ServiceEnabled s)
  | .cycle _ => decide (SmpReady s)
  | .req _ _ _ _ => true
  | .addrFilter _ => true
  | .collect _ => true
  | .crc16Init => true
  | .crc16Update _ _ => true
  | .crc16 _ => true
  | .crcCheck _ => true
  | .validate _ => true
  | .respBuild _ _ _ => true
  | .transmit _ => true
  | .protect _ => true
  | .driveOutputs _ => true
  | .recover => true
  | .rearm => true

end Sys2Proof.Machine
end

