-- ==== Sys2Proof/Machine/Ops.lean ====
section
/-! DEFINITION. The shared operations over the state: the frame buffer (00_scope.md R12 `MemRead`, `MemWrite`), the
receiver (R67 to R70), raising a condition and its two handlers (R124, R109, R110), transmission (R93), the outputs (R101),
the sample load (R99), the body of the service (R114) and a whole transaction on the line (R49). -/

namespace Sys2Proof.Machine

/-! ### The frame buffer -/

/-- The canonical form: indices strictly rising and below 8. -/
def Memory.wf : Memory → Bool
  | [] => true
  | c :: m => decide (c.1 < reqLen) && m.all (fun d => decide (c.1 < d.1)) && Memory.wf m

/-- The byte an index holds, if anything has written it. -/
def memLookup : Memory → Nat → Option Byte
  | [], _ => none
  | c :: m, i => if c.1 = i then some c.2 else memLookup m i

/-- `frame_buf[i] <- v` (`MemWrite(i, 1, v)`); callers have `i < 8`. -/
def memStore : Memory → Nat → Byte → Memory
  | [], i, v => [(i, v)]
  | c :: m, i, v =>
    if i < c.1 then (i, v) :: c :: m
    else if i = c.1 then (i, v) :: m
    else c :: memStore m i v

/-- `MemRead(i, 1)`. -/
def memRead (m : Memory) (i : Nat) : Except Fault Byte :=
  if i < reqLen then
    match memLookup m i with
    | some v => .ok v
    | none => .error .frameByteUnwritten
  else .error .frameIndexOutOfRange

/-- `MemRead(i, 2)`: two byte reads, most significant first (R12, R35). -/
def memRead2 (m : Memory) (i : Nat) : Except Fault Half :=
  match memRead m i, memRead m (i + 1) with
  | .ok h, .ok l => .ok (joinBytes h l)
  | .error e, _ => .error e
  | _, .error e => .error e

/-- `frame_buf[0..7]`, all eight bytes (R38, R46). -/
def readFrame (m : Memory) : Except Fault Frame :=
  match memRead m 0, memRead m 1, memRead m 2, memRead m 3,
      memRead m 4, memRead m 5, memRead m 6, memRead m 7 with
  | .ok a, .ok f, .ok sh, .ok sl, .ok qh, .ok ql, .ok lo, .ok hi => .ok ⟨a, f, sh, sl, qh, ql, lo, hi⟩
  | _, _, _, _, _, _, _, _ => .error .frameByteUnwritten

/-! ### The receiver -/

/-- `ADDR_FILTER(b)` (R68, and the entry of the receive interrupt, R133). -/
def filterByte (b : Byte) (s : State) : State :=
  if b = s.cfg.slaveAddr then
    { s with rxIrqEn := false, frameBuf := memStore s.frameBuf 0 b, byteCnt := 1#4, frameSignal := .framePending }
  else { s with rxIrqEn := false, byteCnt := 0#4, frameSignal := .addressMismatch }

/-- `COLLECT(b)` (R69); callers have `byte_cnt < 8`. -/
def collectByte (b : Byte) (s : State) : State :=
  { s with frameBuf := memStore s.frameBuf s.byteCnt.toNat b, byteCnt := s.byteCnt + 1#4 }

/-- `RX_BYTE(b)` (R67): filter, collect or discard (R70). -/
def receiveByte (b : Byte) (s : State) : State :=
  if s.rxIrqEn then filterByte b s
  else if Collecting s then collectByte b s
  else s

/-- Bytes received in order with no MAIN step between them (R62). -/
def receiveBytes (bs : List Byte) (s : State) : State := bs.foldl (fun t b => receiveByte b t) s

/-! ### Conditions and their handlers -/

/-- `raise E(info)` (R12, R124): the condition is recorded; its handling follows. -/
def raiseCondition (e : SvcEvent) (s : State) : State := { s with svcLog := s.svcLog ++ [e] }

/-- `emit` of line events (R12). -/
def emitTx (es : List TxEvent) (s : State) : State := { s with txLog := s.txLog ++ es }

/-- `REARM` (R110): three writes, indivisible. -/
def rearmReceiver (s : State) : State :=
  { s with byteCnt := 0#4, frameSignal := .idle, rxIrqEn := true }

/-- `RECOVER` (R109): the receiver is turned off and on, then the same three writes. -/
def recoverReceiver (s : State) : State := rearmReceiver (emitTx [.rxReset] s)

/-! ### Outputs and samples -/

/-- `TRANSMIT(r)` (R93): `tx_en` is 1 from before the first byte until after the last, 0 afterwards. -/
def transmitBytes (r : List Byte) (s : State) : State :=
  { emitTx ([.de true] ++ r.map TxEvent.tx ++ [.de false]) s with txEn := false }

/-- `DRIVE_OUTPUTS(f)` (R101): both outputs in one write. -/
def driveProtection (f : Bool) (s : State) : State := { s with faultEn := f, normalEn := !f }

/-- `SAMPLE_LOAD(s)` (R99), where enabled. -/
def loadSamples (smp : SampleSet) (s : State) : State :=
  { driveProtection (protectDecision s.cfg smp) { s with x := smp } with seq := .service }

/-! ### Service -/

/-- The response to an accepted request `f` for `q` registers (R54, R86, R90). -/
def responseTo (f : Frame) (q : Half) (s : State) : List Byte :=
  respBuild f.address (respCount s.cfg.respCountMode q) s.x

/-- What `SERVICE` does with the verdict on the frame `f` (R84, R85, R86). -/
def serveVerdict (f : Frame) (s : State) : State :=
  match verdictOf f with
  | .crcMismatch => rearmReceiver (raiseCondition .crcMismatch s)
  | .unsupportedRequest q fc => recoverReceiver (raiseCondition (.unsupportedRequest q fc) s)
  | .accept q => rearmReceiver (raiseCondition (.responded q) (transmitBytes (responseTo f q s) s))

/-- The body of `SERVICE` (R114, R115), where enabled. -/
def serviceBody (s : State) : Host.Outcome State Fault Refusal :=
  match s.frameSignal with
  | .idle => .next { s with seq := .sample }
  | .addressMismatch => .next { recoverReceiver (raiseCondition .addressMismatch s) with seq := .sample }
  | .framePending =>
    match readFrame s.frameBuf with
    | .ok f => .next { serveVerdict f s with seq := .sample }
    | .error e => .fault e

/-- Why MAIN has no `SERVICE` step (R116, R117). -/
def serviceHoldFault (s : State) : Fault :=
  if s.seq = .sample then .awaitingSampleSet else .serviceHeldPartialFrame

/-- `SERVICE` where it is MAIN's next step, nothing where it is held: a held service waits (R116, R119). -/
def serviceIfEnabled (s : State) : Host.Outcome State Fault Refusal :=
  if ServiceEnabled s then serviceBody s else .next s

/-- One request on the line up to MAIN's service of it (R49; "transaction" in the glossary of R12): the bytes
arrive in order, then `SERVICE` if it is MAIN's next step and not held. -/
def transact (bs : List Byte) (s : State) : Host.Outcome State Fault Refusal :=
  serviceIfEnabled (receiveBytes bs s)

/-- A function-type operation leaves its value in the model's result field and nothing else. -/
def giveResult (r : FnResult) (s : State) : State := { s with result := r }

end Sys2Proof.Machine
end

