-- ==== Sys2Proof/Machine/FrameClasses.lean ====
section
/-! DEFINITION. The request frame classes and the response frame (30_encoding.md R49, R52): each meaning is the whole
transaction of that frame on the line. -/

namespace Sys2Proof.Machine

/-- RIR (R86): the eight bytes arrive and are served. -/
def execRir (a : Byte) (ss qq : Half) (lo hi : Byte) (s : State) : Host.Outcome State Fault Refusal :=
  transact (frameBytes (mkFrame a funcRir ss qq lo hi)) s

/-- BAD_CRC (R84). -/
def execBadCrc (a f : Byte) (ss qq : Half) (lo hi : Byte) (s : State) : Host.Outcome State Fault Refusal :=
  transact (frameBytes (mkFrame a f ss qq lo hi)) s

/-- UNSUPPORTED (R85). -/
def execUnsupported (a f : Byte) (ss qq : Half) (lo hi : Byte) (s : State) : Host.Outcome State Fault Refusal :=
  transact (frameBytes (mkFrame a f ss qq lo hi)) s

/-- FOREIGN (R68, R70, R109): the first byte mismatches, the following bytes are discarded, `SERVICE` recovers. -/
def execForeign (a : Byte) (rest : List Byte) (s : State) : Host.Outcome State Fault Refusal :=
  transact (a :: rest) s

/-- INCOMPLETE (R116): the bytes are collected and `SERVICE` stays held. -/
def execIncomplete (a : Byte) (rest : List Byte) (s : State) : Host.Outcome State Fault Refusal :=
  transact (a :: rest) s

/-- RSP (R52, R93): the response frame goes out on the line. -/
def execRsp (a : Byte) (regs : List S16) (s : State) : Host.Outcome State Fault Refusal :=
  .next (transmitBytes (rspFrame a regs) s)

end Sys2Proof.Machine
end

