-- ==== Sys2Proof/Machine/Functions.lean ====
section
/-! DEFINITION. The function-type operations (41_crc16.md, 42_frame_validator.md, 43_response_builder.md R90,
44_protection.md R100): pure; executed on their own they leave their value in `State.result` (assumption log 4). -/

namespace Sys2Proof.Machine

/-- CRC16_INIT (R74). -/
def execCrc16Init (s : State) : Host.Outcome State Fault Refusal := .next (giveResult (.crc crcInit) s)

/-- CRC16_UPDATE (R75). -/
def execCrc16Update (c : Half) (b : Byte) (s : State) : Host.Outcome State Fault Refusal :=
  .next (giveResult (.crc (crcUpdate c b)) s)

/-- CRC16 (R76). -/
def execCrc16 (m : List Byte) (s : State) : Host.Outcome State Fault Refusal :=
  .next (giveResult (.crc (crcOf m)) s)

/-- CRC_CHECK (R77). -/
def execCrcCheck (f : Frame) (s : State) : Host.Outcome State Fault Refusal :=
  .next (giveResult (.bool (crcCheck f)) s)

/-- VALIDATE (R83). -/
def execValidate (f : Frame) (s : State) : Host.Outcome State Fault Refusal :=
  .next (giveResult (.verdict (verdictOf f)) s)

/-- RESP_BUILD (R90). -/
def execRespBuild (a : Byte) (n : Fin 8) (x : SampleSet) (s : State) : Host.Outcome State Fault Refusal :=
  .next (giveResult (.bytes (respBuild a n.val x)) s)

/-- PROTECT (R100), with the four constants of the configuration. -/
def execProtect (smp : SampleSet) (s : State) : Host.Outcome State Fault Refusal :=
  .next (giveResult (.bool (protectDecision s.cfg smp)) s)

end Sys2Proof.Machine
end

