-- ==== Sys2Proof/Machine/MainCycle.lean ====
section
/-! DEFINITION. The sequencer and the outputs (46_main_cycle.md, 44_protection.md R99, R101, 43_response_builder.md R93) and
`RESET` (70_reset_and_hazards.md R144). -/

namespace Sys2Proof.Machine

/-- RESET (R144): every element of R13 but `frame_buf` and the sample registers, which are not written; the histories
restart, and with them the model's result field. The configuration and the environment's stimuli stay (R145). -/
def execReset (s : State) : Host.Outcome State Fault Refusal :=
  .next { s with
    frameSignal := .idle, rxIrqEn := true, byteCnt := 0#4, seq := .sample, txEn := false,
    faultEn := s.cfg.rstFault, normalEn := !s.cfg.rstFault, txLog := [], svcLog := [], result := .none }

/-- SAMPLE_LOAD (R99): enabled iff `seq = SEQ_SAMPLE`. -/
def execSampleLoad (smp : SampleSet) (s : State) : Host.Outcome State Fault Refusal :=
  if SmpReady s then .next (loadSamples smp s) else .fault .sampleLoadHeld

/-- SERVICE (R114): enabled iff `seq = SEQ_SERVICE` and no frame is incomplete (R116). -/
def execService (s : State) : Host.Outcome State Fault Refusal :=
  if ServiceEnabled s then serviceBody s else .fault (serviceHoldFault s)

/-- CYCLE (R119): `SAMPLE_LOAD` then `SERVICE`; a held second half is left to the `SERVICE` that comes when the hold
lifts. -/
def execCycle (smp : SampleSet) (s : State) : Host.Outcome State Fault Refusal :=
  if SmpReady s then serviceIfEnabled (loadSamples smp s) else .fault .sampleLoadHeld

/-- TRANSMIT (R93). -/
def execTransmit (r : List Byte) (s : State) : Host.Outcome State Fault Refusal := .next (transmitBytes r s)

/-- DRIVE_OUTPUTS (R101). -/
def execDriveOutputs (f : Bool) (s : State) : Host.Outcome State Fault Refusal := .next (driveProtection f s)

end Sys2Proof.Machine
end

