-- ==== Sys2Proof/Machine/Receiver.lean ====
section
/-! DEFINITION. The frame receiver and its recovery (40_frame_receiver.md, 45_recovery.md) and the script line `REQ`. -/

namespace Sys2Proof.Machine

/-- RX_BYTE (R67): enabled in every state. -/
def execRxByte (b : Byte) (s : State) : Host.Outcome State Fault Refusal := .next (receiveByte b s)

/-- ADDR_FILTER (R68). -/
def execAddrFilter (b : Byte) (s : State) : Host.Outcome State Fault Refusal := .next (filterByte b s)

/-- COLLECT (R69). Index 8 and above does not exist (R31); `RX_BYTE` never forms it. -/
def execCollect (b : Byte) (s : State) : Host.Outcome State Fault Refusal :=
  if s.byteCnt.toNat < reqLen then .next (collectByte b s) else .fault .frameIndexOutOfRange

/-- RECOVER (R109). -/
def execRecover (s : State) : Host.Outcome State Fault Refusal := .next (recoverReceiver s)

/-- REARM (R110). -/
def execRearm (s : State) : Host.Outcome State Fault Refusal := .next (rearmReceiver s)

/-- REQ (R62, R63): the eight `RX_BYTE` events of a request whose CRC is right. -/
def execReq (a f : Byte) (ss qq : Half) (s : State) : Host.Outcome State Fault Refusal :=
  .next (receiveBytes (frameBytes (reqFrame a f ss qq)) s)

end Sys2Proof.Machine
end

