-- ==== Sys2Proof/Machine/Dispatch.lean ====
section
/-! DEFINITION. One arm per operation of spec/opcode_table.json, each one call of its meaning. -/

namespace Sys2Proof.Machine

def exec (i : Instr) (s : State) : Host.Outcome State Fault Refusal :=
  match i with
  | .rir a ss qq lo hi => Sys2Proof.Machine.execRir a ss qq lo hi s
  | .badCrc a f ss qq lo hi => Sys2Proof.Machine.execBadCrc a f ss qq lo hi s
  | .unsupported a f ss qq lo hi => Sys2Proof.Machine.execUnsupported a f ss qq lo hi s
  | .foreign a rest => Sys2Proof.Machine.execForeign a rest s
  | .incomplete a rest => Sys2Proof.Machine.execIncomplete a rest s
  | .rsp a regs => Sys2Proof.Machine.execRsp a regs s
  | .reset => Sys2Proof.Machine.execReset s
  | .rxByte b => Sys2Proof.Machine.execRxByte b s
  | .sampleLoad smp => Sys2Proof.Machine.execSampleLoad smp s
  | .service => Sys2Proof.Machine.execService s
  | .cycle smp => Sys2Proof.Machine.execCycle smp s
  | .req a f ss qq => Sys2Proof.Machine.execReq a f ss qq s
  | .addrFilter b => Sys2Proof.Machine.execAddrFilter b s
  | .collect b => Sys2Proof.Machine.execCollect b s
  | .crc16Init => Sys2Proof.Machine.execCrc16Init s
  | .crc16Update c b => Sys2Proof.Machine.execCrc16Update c b s
  | .crc16 m => Sys2Proof.Machine.execCrc16 m s
  | .crcCheck f => Sys2Proof.Machine.execCrcCheck f s
  | .validate f => Sys2Proof.Machine.execValidate f s
  | .respBuild a n x => Sys2Proof.Machine.execRespBuild a n x s
  | .transmit r => Sys2Proof.Machine.execTransmit r s
  | .protect smp => Sys2Proof.Machine.execProtect smp s
  | .driveOutputs f => Sys2Proof.Machine.execDriveOutputs f s
  | .recover => Sys2Proof.Machine.execRecover s
  | .rearm => Sys2Proof.Machine.execRearm s

end Sys2Proof.Machine
end

