-- ==== Sys2Proof/Machine/Fetch.lean ====
section
/-! DEFINITION. How an operation comes to run (00_scope.md R10, 30_encoding.md R60, R61, 46_main_cycle.md R122): the next
stimulus is decoded and its operation is taken if it is enabled; with no stimulus left the block takes its own `SERVICE`. -/

namespace Sys2Proof.Machine

/-- A stimulus whose decoding is `i`: the step is taken where it is enabled; where it is not, the edge passes and
nothing happens (V8 of 95_test_vectors.md: "none"; R61: the sample set is not taken). -/
def present (i : Instr) (s : State) : Host.Outcome State Fault Refusal :=
  if Enabled s i then exec i s else .next s

/-- The refusal a rejected stimulus gets. -/
def refusalOf : Reject → Refusal
  | .simultaneousStrobes => .simultaneousStrobes

/-- The environment presents nothing more: MAIN takes `SERVICE` where it is enabled; otherwise no agent has a step and
the machine is stuck (R116, U12: no idle step). -/
def mainTurn (s : State) : Host.Outcome State Fault Refusal :=
  if ServiceEnabled s then exec .service s else .fault (serviceHoldFault s)

/-- One step of the block. -/
def fetchAndRun (s : State) : Host.Outcome State Fault Refusal :=
  match s.stim with
  | [] => mainTurn s
  | st :: more =>
    match decode s.cfg.slaveAddr st with
    | .ok (i, left) => present i { s with stim := left ++ more }
    | .error r => .refused (refusalOf r)

/-- The state in which the guard of the event `ev` holds: `SAMPLE_LOAD` needs `seq = SEQ_SAMPLE`, `SERVICE` needs
`seq = SEQ_SERVICE` and no incomplete frame. -/
def openGuard (ev : Nat) (s : State) : State :=
  if ev = 1 then { s with seq := .sample }
  else if ev = 0 then
    let t := { s with seq := .service }
    if PartialFrame t then rearmReceiver t else t
  else s

/-- A block about to send the response with address `a` and `n` registers of value 0: an accepted request for `n`
registers stands complete in the frame buffer and `SERVICE` is MAIN's next step (assumption log 3). -/
def stageResponse (a : Byte) (n : Nat) (s : State) : State :=
  let f := reqFrame a funcRir 0#16 (BitVec.ofNat 16 n)
  { s with
    frameSignal := .framePending, rxIrqEn := false, byteCnt := 8#4, seq := .service, x := SampleSet.zero,
    cfg := { s.cfg with respCountMode := .requested },
    frameBuf := [(0, f.address), (1, f.function), (2, f.startHi), (3, f.startLo),
      (4, f.qtyHi), (5, f.qtyLo), (6, f.crcLo), (7, f.crcHi)],
    stim := [] }

/-- The state in which the next step runs the operation of a row's word (R64): an event strobe or a request frame
becomes the next stimulus, with the guard of the event holding; the head of a response is staged. -/
def stageWord (s : State) (nbits w : Nat) : State :=
  if nbits = 24 then
    match decodeRspHead (tableByte 3 0 w) (tableByte 3 1 w) (tableByte 3 2 w) with
    | some (a, n) => stageResponse a n s
    | none => s
  else
    match stimOfTableWord nbits w with
    | some st =>
      let t := if nbits ≤ 8 then openGuard w s else s
      { t with stim := st :: t.stim }
    | none => s

end Sys2Proof.Machine
end

