-- ==== Sys2Proof/Machine/Step.lean ====
section
/-! DEFINITION. The step of the block (46_main_cycle.md R122) and the placing of an operation where the next step takes it. -/

namespace Sys2Proof.Machine

/-- One step. -/
def step (s : State) : Host.Outcome State Fault Refusal := fetchAndRun s

/-- `s` with the operation of a row's word placed so that the next step runs it. -/
def State.withFetchWord (s : State) (nbits w : Nat) : State := stageWord s nbits w

end Sys2Proof.Machine
end

