-- ==== Sys2Proof/Safety.lean ====
section
/-! DEFINITION. What a safe run is, in the terms the statements use: the invariants of 10_state.md R28, the discipline of
the line log (43_response_builder.md R94, 30_encoding.md R55), which states differ only in values the spec leaves
unspecified (U2 of 93_implementation_defined.md), bytes received one by one (30_encoding.md R62), and which writers an
operation may run (10_state.md R13, R27). -/

namespace Sys2Proof.Machine

/-- listening with no transaction open (R12 glossary, R112). -/
abbrev Listening (s : State) : Prop := s.rxIrqEn = true ∧ s.frameSignal = .idle ∧ s.byteCnt = 0#4

/-- What decides which step comes next (R22, R117). -/
abbrev controlOf (s : State) : Seq × FrameSignal × BitVec 4 := (s.seq, s.frameSignal, s.byteCnt)

/-- Some sample lies outside its threshold: any cell above `V_CELL_MAX`, the current above `I_MAX`, any temperature below
`T_MIN` or above `T_MAX`, each strictly and as signed numbers (R100). -/
abbrev OutsideThresholds (c : Config) (smp : SampleSet) : Prop :=
  c.vCellMax.toInt < smp.cell0.toInt ∨ c.vCellMax.toInt < smp.cell1.toInt ∨
  c.vCellMax.toInt < smp.cell2.toInt ∨ c.vCellMax.toInt < smp.cell3.toInt ∨
  c.iMax.toInt < smp.current.toInt ∨
  smp.temp0.toInt < c.tMin.toInt ∨ c.tMax.toInt < smp.temp0.toInt ∨
  smp.temp1.toInt < c.tMin.toInt ∨ c.tMax.toInt < smp.temp1.toInt

/-- The invariants of R28 (7 holds by the type of `frameSignal`), with what the model adds to them: the collected bytes
are in the buffer (R16), the buffer is in canonical form, and the outputs are the decision on the registers once a
sample set of this cycle has been loaded (R99 corner case a). -/
structure BlockInv (s : State) : Prop where
  /-- R28.1 -/
  listening : s.rxIrqEn = true ↔ s.frameSignal = .idle
  /-- R28.2 -/
  idleCount : s.frameSignal = .idle → s.byteCnt = 0#4
  /-- R28.3 -/
  mismatchCount : s.frameSignal = .addressMismatch → s.byteCnt = 0#4
  /-- R28.4, the count -/
  pendingCount : s.frameSignal = .framePending → 1 ≤ s.byteCnt.toNat ∧ s.byteCnt.toNat ≤ reqLen
  /-- R28.4, the address byte -/
  pendingAddress : s.frameSignal = .framePending → memLookup s.frameBuf 0 = some s.cfg.slaveAddr
  /-- R16: indices below `byte_cnt` hold bytes of the transaction -/
  collected : s.frameSignal = .framePending → ∀ i, i < s.byteCnt.toNat → (memLookup s.frameBuf i).isSome
  /-- the frame buffer is in canonical form -/
  bufferForm : Memory.wf s.frameBuf = true
  /-- R28.5 -/
  exclusive : s.normalEn = !s.faultEn
  /-- R28.6 -/
  lineReleased : s.txEn = false
  /-- R99: the outputs are the decision on the loaded sample set -/
  judged : s.seq = .service → (s.faultEn = true ↔ OutsideThresholds s.cfg s.x)

/-- The line log of a block that only ever recovers its receiver and sends responses (R94, R55): every burst between
`DE(1)` and `DE(0)` is one response frame of at most seven registers. -/
inductive WireLog : List TxEvent → Prop where
  | empty : WireLog []
  | receiverReset (log : List TxEvent) : WireLog log → WireLog (log ++ [.rxReset])
  | response (log : List TxEvent) (a : Byte) (regs : List S16) : WireLog log → regs.length ≤ regCount →
      WireLog (log ++ ([.de true] ++ (rspFrame a regs).map TxEvent.tx ++ [.de false]))

/-- Two states that agree on everything but values no rule may read (R16, R18, U2): frame-buffer bytes at or above
`byte_cnt` or outside a transaction, and the sample registers before the sample load of the cycle. -/
structure SameUpToUnspecified (s t : State) : Prop where
  /-- every other element is the same -/
  rest : t = { s with frameBuf := t.frameBuf, x := t.x }
  /-- the bytes of the open transaction are the same -/
  frame : s.frameSignal = .framePending → ∀ i, i < s.byteCnt.toNat → memLookup s.frameBuf i = memLookup t.frameBuf i
  /-- the sample set of this cycle is the same once loaded -/
  samples : s.seq = .service → s.x = t.x

/-- The `RX_BYTE` events for these bytes in order, with no MAIN step between them (`RX hh hh ...` of R62), lead from one
state to the other. -/
inductive RxBytes : List Byte → State → State → Prop where
  | nil (s : State) : RxBytes [] s s
  | cons {b : Byte} {bs : List Byte} {s t u : State} :
      exec (.rxByte b) s = .next t → RxBytes bs t u → RxBytes (b :: bs) s u

/-- The names of the column "writer" of R13 and of R27's histories. `function` stands for the function-type operations,
which write no element of R13 and the model's own result field (log 4). -/
inductive Writer where
  | addrFilter
  | collect
  | rearm
  | recover
  | reset
  | sampleLoad
  | driveOutputs
  | transmit
  | service
  | function
deriving DecidableEq, Repr

/-- The writers a received byte may run (R67). -/
def byteWriters : List Writer := [.addrFilter, .collect]

/-- The writers a service may run (R114). -/
def serviceWriters : List Writer := [.service, .recover, .rearm, .transmit]

/-- The writers a sample load runs (R99). -/
def loadWriters : List Writer := [.sampleLoad, .driveOutputs]

/-- The writers an operation may run, from its pseudocode; a frame class is its bytes and its service (log 3). -/
def writersIn : Instr → List Writer
  | .rir _ _ _ _ _ => byteWriters ++ serviceWriters
  | .badCrc _ _ _ _ _ _ => byteWriters ++ serviceWriters
  | .unsupported _ _ _ _ _ _ => byteWriters ++ serviceWriters
  | .foreign _ _ => byteWriters ++ serviceWriters
  | .incomplete _ _ => byteWriters ++ serviceWriters
  | .rsp _ _ => [.transmit]
  | .reset => [.reset]
  | .rxByte _ => byteWriters
  | .sampleLoad _ => loadWriters
  | .service => serviceWriters
  | .cycle _ => loadWriters ++ serviceWriters
  | .req _ _ _ _ => byteWriters
  | .addrFilter _ => [.addrFilter]
  | .collect _ => [.collect]
  | .crc16Init => [.function]
  | .crc16Update _ _ => [.function]
  | .crc16 _ => [.function]
  | .crcCheck _ => [.function]
  | .validate _ => [.function]
  | .respBuild _ _ _ => [.function]
  | .transmit _ => [.transmit]
  | .protect _ => [.function]
  | .driveOutputs _ => [.driveOutputs]
  | .recover => [.recover]
  | .rearm => [.rearm]

/-- The operation runs none of these writers. -/
abbrev RunsNone (i : Instr) (listed : List Writer) : Prop := ∀ w ∈ writersIn i, w ∉ listed

end Sys2Proof.Machine
end

