-- ==== Sys2Proof/Certificates/Slice0/Obligations.lean ====
section
/-! DEFINITION. The statements for the provers. A clause that rests on a decision of the spec (D<n> of
92_eei_decisions.md) or on an entry of the assumption log says so in its docstring. -/

open Sys2Proof Sys2Proof.Machine

/-! ### Reset -/

/-- 70_reset_and_hazards.md section 1: `RESET`, in every state, and its dominance over the other strobes. The values are the
spec's decisions D9, D10 and D11; that `frame_buf` and the sample registers are not written is its pseudocode. The model's
own result field is left unconstrained. -/
def Obligations.ResetGivesEveryElementItsResetValue : Prop :=
  (∀ s : State, ∃ t, exec .reset s = .next t ∧
    t = { s with
      frameSignal := .idle, rxIrqEn := true, byteCnt := 0#4, seq := .sample, txEn := false,
      faultEn := s.cfg.rstFault, normalEn := !s.cfg.rstFault, txLog := [], svcLog := [], result := t.result }) ∧
  ∀ (addr : Byte) (ev : BitVec 3) (b : Byte) (smp : SampleSet), ev.getLsbD 2 = true →
    decode addr (.edge ev b smp) = .ok (.reset, [])

/-- 70_reset_and_hazards.md section 1: the values the spec lists for the state after reset (its decisions D9, D10) on this
hardware's configuration. Nothing is said of `frame_buf` and the sample registers (log 5, log 6). -/
def Obligations.ResetStateHoldsTheListedValues : Prop :=
  State.reset.frameSignal = .idle ∧ State.reset.rxIrqEn = true ∧ State.reset.byteCnt = 0#4 ∧
  State.reset.seq = .sample ∧ State.reset.txEn = false ∧ State.reset.faultEn = true ∧
  State.reset.normalEn = false ∧ State.reset.txLog = [] ∧ State.reset.svcLog = [] ∧
  State.reset.cfg.slaveAddr = 0x01#8 ∧ State.reset.cfg.vCellMax.toInt = 3650 ∧ State.reset.cfg.iMax.toInt = 10000 ∧
  State.reset.cfg.tMin.toInt = -20 ∧ State.reset.cfg.tMax.toInt = 40 ∧ State.reset.cfg.respCountMode = .requested

/-! ### Decoding -/

/-- 30_encoding.md section 6 and V8: the operation each strobe vector selects (the spec's decisions D1 and D20). -/
def Obligations.StrobesSelectTheOperation : Prop :=
  ∀ (addr : Byte) (ev : BitVec 3) (b : Byte) (smp : SampleSet),
    (ev &&& 0b100#3 = 0b100#3 → decode addr (.edge ev b smp) = .ok (.reset, [])) ∧
    (ev = 0b010#3 → decode addr (.edge ev b smp) = .ok (.rxByte b, [])) ∧
    (ev = 0b001#3 → decode addr (.edge ev b smp) = .ok (.sampleLoad smp, [])) ∧
    (ev = 0b000#3 → decode addr (.edge ev b smp) = .ok (.service, [])) ∧
    (ev = 0b011#3 → decode addr (.edge ev b smp) = .error .simultaneousStrobes)

/-- R49: every sequence of bytes on the line falls into exactly one class, the first test being made on the first byte
alone, the others on the complete eight bytes. The bytes behind a complete frame are presented next (log 2). -/
def Obligations.RequestSpaceIsClassified : Prop :=
  ∀ (addr a : Byte) (rest : List Byte),
    (a ≠ addr → decode addr (.line a rest) = .ok (.foreign a rest, [])) ∧
    (a = addr → rest.length < 7 → decode addr (.line a rest) = .ok (.incomplete a rest, [])) ∧
    (∀ f sh sl qh ql lo hi more, a = addr → rest = f :: sh :: sl :: qh :: ql :: lo :: hi :: more →
      decode addr (.line a rest) = .ok
        (if crcOf [a, f, sh, sl, qh, ql] ≠ joinBytes hi lo then
            .badCrc a f (joinBytes sh sl) (joinBytes qh ql) lo hi
          else if 7 < 256 * qh.toNat + ql.toNat ∨ f ≠ 0x04#8 then
            .unsupported a f (joinBytes sh sl) (joinBytes qh ql) lo hi
          else .rir a (joinBytes sh sl) (joinBytes qh ql) lo hi,
         lineStim more))

/-- Words written out from the encodings decode to the operations they stand for on this hardware's slave address: requests
(30_encoding.md section 1), the strobe vector of a reset (section 6) and the head of a response (sections 4 and 8). That a
one-byte table word below 8 is the strobe vector and a 24-bit table word a response with zero registers is the model's
reading of table words (log 3). -/
def Obligations.SampleWordsDecodeAsTheSpecReadsThem : Prop :=
  decode 0x01#8 (.line 0x01#8 [0x04#8, 0#8, 0#8, 0#8, 0x07#8, 0xB1#8, 0xC8#8]) =
    .ok (.rir 0x01#8 0#16 7#16 0xB1#8 0xC8#8, []) ∧
  decode 0x01#8 (.line 0x01#8 [0x03#8, 0#8, 0#8, 0#8, 0x07#8, 0x04#8, 0x08#8]) =
    .ok (.unsupported 0x01#8 0x03#8 0#16 7#16 0x04#8 0x08#8, []) ∧
  decode 0x01#8 (.line 0x01#8 [0x04#8, 0#8, 0#8, 0#8, 0x07#8, 0xB1#8, 0xC9#8]) =
    .ok (.badCrc 0x01#8 0x04#8 0#16 7#16 0xB1#8 0xC9#8, []) ∧
  decodeTableWord 8 0b100 = some .reset ∧
  decodeTableWord 24 0x000400 = some (.rsp 0#8 [])

/-- Every operation the decoder gives meets the constraints of its row of the table. -/
def Obligations.DecodedOperationsAreWellFormed : Prop :=
  ∀ (addr : Byte) (st : Stim) (i : Instr) (left : List Stim), decode addr st = .ok (i, left) → i.wf addr = true

/-- Decode and encode agree on every well-formed operation that has an input encoding, with every operand at every value. -/
def Obligations.DecodeOfEncodeGivesTheOperationBack : Prop :=
  ∀ (addr : Byte) (i : Instr) (st : Stim), i.wf addr = true → encode i = some st → decode addr st = .ok (i, [])

/-- R91: the bytes of a response decode back to exactly the registers it carries, for every address and every value. -/
def Obligations.ResponseBytesDecodeToTheRegisters : Prop :=
  ∀ (a : Byte) (regs : List S16), Instr.wf 0#8 (.rsp a regs) = true →
    decodeRsp (rspFrame a regs) = some (.rsp a regs)

/-! ### The frame receiver -/

/-- 40_frame_receiver.md sections 1 and 5: the three branches of `RX_BYTE`, which is enabled in every state, and what it
leaves alone. That bytes 1 to 7 are collected as they arrive is the spec's decision D5. -/
def Obligations.RxByteTakesExactlyOneBranch : Prop :=
  ∀ (b : Byte) (s : State),
    (s.rxIrqEn = true → exec (.rxByte b) s = exec (.addrFilter b) s) ∧
    (s.rxIrqEn = false → s.frameSignal = .framePending → s.byteCnt.toNat < 8 →
      exec (.rxByte b) s = exec (.collect b) s) ∧
    (s.rxIrqEn = false → ¬ (s.frameSignal = .framePending ∧ s.byteCnt.toNat < 8) → exec (.rxByte b) s = .next s) ∧
    ∃ t, exec (.rxByte b) s = .next t ∧
      t = { s with rxIrqEn := t.rxIrqEn, frameSignal := t.frameSignal, frameBuf := t.frameBuf, byteCnt := t.byteCnt }

/-- 40_frame_receiver.md section 2: `ADDR_FILTER` opens a transaction or records a mismatch, and writes nothing else. The
stored address byte and the count on a mismatch are the spec's decision D7. -/
def Obligations.AddressFilterOpensATransactionOrSignalsAMismatch : Prop :=
  ∀ (b : Byte) (s : State), ∃ t, exec (.addrFilter b) s = .next t ∧
    (b = s.cfg.slaveAddr →
      t = { s with rxIrqEn := false, frameSignal := .framePending, byteCnt := 1#4, frameBuf := t.frameBuf } ∧
      memRead t.frameBuf 0 = .ok b ∧ ∀ i, i ≠ 0 → memRead t.frameBuf i = memRead s.frameBuf i) ∧
    (b ≠ s.cfg.slaveAddr →
      t = { s with rxIrqEn := false, frameSignal := .addressMismatch, byteCnt := 0#4 })

/-- R69: `COLLECT` appends the byte at `byte_cnt`, counts it, and writes nothing else; no byte value is special. -/
def Obligations.CollectAppendsTheByte : Prop :=
  ∀ (b : Byte) (s : State), s.byteCnt.toNat < 8 → ∃ t, exec (.collect b) s = .next t ∧
    t = { s with byteCnt := s.byteCnt + 1#4, frameBuf := t.frameBuf } ∧
    t.byteCnt.toNat = s.byteCnt.toNat + 1 ∧
    memRead t.frameBuf s.byteCnt.toNat = .ok b ∧
    ∀ i, i ≠ s.byteCnt.toNat → memRead t.frameBuf i = memRead s.frameBuf i

/-- R71: the filter disables its own interrupt; while it is disabled a byte is collected or discarded; and no operation
enables it again except by returning the receiver to listening. -/
def Obligations.OneInterruptPerTransaction : Prop :=
  (∀ (b : Byte) (s : State), ∃ t, exec (.addrFilter b) s = .next t ∧ t.rxIrqEn = false) ∧
  (∀ (b : Byte) (s : State), s.rxIrqEn = false → ∃ t, exec (.rxByte b) s = .next t ∧ t.rxIrqEn = false ∧
    (t = s ∨ exec (.collect b) s = .next t)) ∧
  (∀ (i : Instr) (s t : State), s.rxIrqEn = false → exec i s = .next t → t.rxIrqEn = true →
    t.frameSignal = .idle ∧ t.byteCnt = 0#4)

/-! ### Function-type operations -/

/-- The seven function-type operations complete in every state, write no element of the block, and leave their value in the
model's result field (a choice of the model, log 4). What the values are is stated below. -/
def Obligations.FunctionOperationsCompleteWithTheirValue : Prop :=
  ∀ (s : State) (c : Half) (b : Byte) (m : List Byte) (f : Frame) (a : Byte) (n : Fin 8) (x : SampleSet),
    exec .crc16Init s = .next { s with result := .crc crcInit } ∧
    exec (.crc16Update c b) s = .next { s with result := .crc (crcUpdate c b) } ∧
    exec (.crc16 m) s = .next { s with result := .crc (crcOf m) } ∧
    exec (.crcCheck f) s = .next { s with result := .bool (crcCheck f) } ∧
    exec (.validate f) s = .next { s with result := .verdict (verdictOf f) } ∧
    exec (.respBuild a n x) s = .next { s with result := .bytes (respBuild a n.val x) } ∧
    exec (.protect x) s = .next { s with result := .bool (protectDecision s.cfg x) }

/-! ### The CRC engine -/

/-- R74: the starting value, and so the CRC of the empty sequence. -/
def Obligations.CrcStartsAtAllOnes : Prop := crcInit = 0xFFFF#16 ∧ crcOf [] = 0xFFFF#16

/-- 41_crc16.md section 2: `CRC16_UPDATE` is eight right shifts with a conditional XOR of 0xA001, after the byte has entered
the low half (the spec's GK1). -/
def Obligations.CrcUpdateIsEightConditionalShifts : Prop :=
  ∀ (c : Half) (b : Byte), crcUpdate c b =
    (fun r : Half => if r.getLsbD 0 then (r >>> 1) ^^^ 0xA001#16 else r >>> 1)^[8] (c ^^^ b.setWidth 16)

/-- 41_crc16.md section 2 corner case b: the byte-table form of the update (derived in the spec from linearity). -/
def Obligations.CrcUpdateHasTheByteTableForm : Prop :=
  ∀ (c : Half) (b : Byte), crcUpdate c b = (c >>> 8) ^^^ crcUpdate 0#16 (c.setWidth 8 ^^^ b)

/-- 41_crc16.md section 3: `CRC16` folds the bytes in order, with no final step (the spec's D14). -/
def Obligations.CrcFoldsTheBytesInOrder : Prop :=
  ∀ (m : List Byte) (b : Byte), crcOf (m ++ [b]) = crcUpdate (crcOf m) b

/-- R77: `CRC_CHECK` compares the low byte of the CRC of the first six bytes with byte 6 and the high byte with byte 7. -/
def Obligations.CrcCheckComparesBothBytes : Prop :=
  ∀ f : Frame, crcCheck f = true ↔
    (crcOf [f.address, f.function, f.startHi, f.startLo, f.qtyHi, f.qtyLo]).toNat % 256 = f.crcLo.toNat ∧
    (crcOf [f.address, f.function, f.startHi, f.startLo, f.qtyHi, f.qtyLo]).toNat / 256 = f.crcHi.toNat

/-- 41_crc16.md section 6: the residue law. A sequence followed by its own CRC, low byte first, has CRC zero. -/
def Obligations.AppendedCrcLeavesZeroResidue : Prop :=
  ∀ (m : List Byte), crcOf (m ++ [(crcOf m).extractLsb' 0 8, (crcOf m).extractLsb' 8 8]) = 0#16

/-- 41_crc16.md section 6: a checker may run the engine over all eight bytes and test for zero. -/
def Obligations.CrcCheckIsZeroResidueOverTheWholeFrame : Prop :=
  ∀ f : Frame, crcCheck f = true ↔
    crcOf [f.address, f.function, f.startHi, f.startLo, f.qtyHi, f.qtyLo, f.crcLo, f.crcHi] = 0#16

/-- 41_crc16.md sections 2 and 3: the CRC tells apart any two sequences that differ in a single byte. -/
def Obligations.CrcDetectsAnySingleByteChange : Prop :=
  ∀ (before after : List Byte) (b b' : Byte), b ≠ b' → crcOf (before ++ b :: after) ≠ crcOf (before ++ b' :: after)

/-! ### The frame validator -/

/-- R83: the verdict, the CRC first, then quantity (all 16 bits, unsigned) and function together; the start address is not
looked at. -/
def Obligations.ValidateGivesTheVerdictInOrder : Prop :=
  ∀ f : Frame, verdictOf f =
    if crcOf [f.address, f.function, f.startHi, f.startLo, f.qtyHi, f.qtyLo] ≠
        BitVec.ofNat 16 (256 * f.crcHi.toNat + f.crcLo.toNat) then .crcMismatch
    else if 7 < 256 * f.qtyHi.toNat + f.qtyLo.toNat ∨ f.function ≠ 0x04#8 then
      .unsupportedRequest (BitVec.ofNat 16 (256 * f.qtyHi.toNat + f.qtyLo.toNat)) f.function
    else .accept (BitVec.ofNat 16 (256 * f.qtyHi.toNat + f.qtyLo.toNat))

/-! ### The response builder -/

/-- R90: length, address, function, byte count, registers high byte first in the fixed order, and the CRC of all preceding
bytes, low byte then high byte. -/
def Obligations.ResponseHasItsLayout : Prop :=
  ∀ (a : Byte) (n : Nat) (x : SampleSet) (p : List Byte), n ≤ 7 → p = respBuild a n x →
    p.length = 5 + 2 * n ∧ p[0]? = some a ∧ p[1]? = some 0x04#8 ∧ p[2]? = some (BitVec.ofNat 8 (2 * n)) ∧
    (∀ (i : Nat) (v : S16), i < n →
      [x.cell0, x.cell1, x.cell2, x.cell3, x.current, x.temp0, x.temp1][i]? = some v →
      p[3 + 2 * i]? = some (v.extractLsb' 8 8) ∧ p[4 + 2 * i]? = some (v.extractLsb' 0 8)) ∧
    p[3 + 2 * n]? = some ((crcOf (p.take (3 + 2 * n))).extractLsb' 0 8) ∧
    p[4 + 2 * n]? = some ((crcOf (p.take (3 + 2 * n))).extractLsb' 8 8)

/-- 43_response_builder.md section 2: `TRANSMIT` asserts transmit-enable, sends the bytes in order, releases the line, and
writes nothing else. That the wait for transmit-complete ends inside the step is the spec's decision D16. -/
def Obligations.TransmitEnablesTheLineAroundTheBytes : Prop :=
  ∀ (r : List Byte) (s : State), exec (.transmit r) s =
    .next { s with txEn := false, txLog := s.txLog ++ ([.de true] ++ r.map TxEvent.tx ++ [.de false]) }

/-- 30_encoding.md section 4 with section 2 of 43_response_builder.md: the response frame RSP goes out on the line as one
transmission of its 5 + 2n bytes. That the row RSP is executed as the transmission of that response is the model's choice
(log 3); that the transmission completes is the spec's decision D16. -/
def Obligations.ResponseFrameGoesOutOnTheLine : Prop :=
  ∀ (a : Byte) (regs : List S16) (s : State), Instr.wf s.cfg.slaveAddr (.rsp a regs) = true → ∃ r : List Byte,
    exec (.rsp a regs) s =
      .next { s with txEn := false, txLog := s.txLog ++ ([.de true] ++ r.map TxEvent.tx ++ [.de false]) } ∧
    r.length = 5 + 2 * regs.length ∧ decodeRsp r = some (.rsp a regs)

/-- 43_response_builder.md section 3: a response to quantity 7, or to any accepted quantity under FIXED7, has nineteen
bytes, byte count 14 and residue zero. -/
def Obligations.FullResponseHasNineteenBytesAndZeroResidue : Prop :=
  ∀ (a : Byte) (mode : RespCountMode) (q : Half) (x : SampleSet), (q = 7#16 ∨ mode = .fixed7) →
    (respBuild a (respCount mode q) x).length = 19 ∧
    (respBuild a (respCount mode q) x)[2]? = some 0x0E#8 ∧
    crcOf (respBuild a (respCount mode q) x) = 0#16

/-! ### The protection comparator -/

/-- R100: fault exactly if one of the nine strict signed comparisons holds; and the numbers of this hardware. -/
def Obligations.ProtectIsAnyStrictSignedExcess : Prop :=
  ∀ (c : Config) (smp : SampleSet),
    (protectDecision c smp = true ↔ OutsideThresholds c smp) ∧
    (c = Config.default → (protectDecision c smp = true ↔
      3650 < smp.cell0.toInt ∨ 3650 < smp.cell1.toInt ∨ 3650 < smp.cell2.toInt ∨ 3650 < smp.cell3.toInt ∨
      10000 < smp.current.toInt ∨ ¬ (-20 ≤ smp.temp0.toInt ∧ smp.temp0.toInt ≤ 40) ∨
      ¬ (-20 ≤ smp.temp1.toInt ∧ smp.temp1.toInt ≤ 40)))

/-- 44_protection.md section 3: `DRIVE_OUTPUTS` sets both outputs to complementary values and nothing else (1 means
enabled: the spec's decision D15). -/
def Obligations.DriveOutputsSetsComplementaryOutputs : Prop :=
  ∀ (f : Bool) (s : State), exec (.driveOutputs f) s = .next { s with faultEn := f, normalEn := !f }

/-- 44_protection.md section 1: `SAMPLE_LOAD` takes the seven values as they are, drives the outputs with the decision on them
and hands the cycle to `SERVICE`; enabled iff `seq = SEQ_SAMPLE`. That asking for it elsewhere, where the spec says the step
waits, answers a fault is the model's choice (log 8); the strobe that selects it is the spec's decision D1. -/
def Obligations.SampleLoadStoresJudgesAndHandsOver : Prop :=
  (∀ (smp : SampleSet) (s : State), s.seq = .sample → ∃ v : Bool, (v = true ↔ OutsideThresholds s.cfg smp) ∧
    exec (.sampleLoad smp) s = .next { s with x := smp, faultEn := v, normalEn := !v, seq := .service }) ∧
  (∀ (smp : SampleSet) (s : State), s.seq = .service → exec (.sampleLoad smp) s = .fault .sampleLoadHeld) ∧
  ∀ (addr b : Byte) (smp : SampleSet), decode addr (.edge 0b001#3 b smp) = .ok (.sampleLoad smp, [])

/-- R103: the decision has no memory. Two blocks of the same configuration, whatever their history, drive the same
outputs from the same sample set. -/
def Obligations.ProtectionHasNoHistory : Prop :=
  ∀ (smp : SampleSet) (s s' : State), s.cfg = s'.cfg → s.seq = .sample → s'.seq = .sample → ∃ t t',
    exec (.sampleLoad smp) s = .next t ∧ exec (.sampleLoad smp) s' = .next t' ∧
    t.faultEn = t'.faultEn ∧ t.normalEn = t'.normalEn

/-! ### Recovery and re-arm -/

/-- 45_recovery.md sections 1 and 2: `REARM` returns the receiver to listening; `RECOVER` does the same and logs the receiver
reset; neither writes anything else. That the writes are indivisible is the spec's decision D8. -/
def Obligations.RecoverAndRearmReturnToListening : Prop :=
  ∀ s : State,
    exec .rearm s = .next { s with byteCnt := 0#4, frameSignal := .idle, rxIrqEn := true } ∧
    exec .recover s =
      .next { s with byteCnt := 0#4, frameSignal := .idle, rxIrqEn := true, txLog := s.txLog ++ [.rxReset] }

/-! ### The service -/

/-- 46_main_cycle.md section 1 and 45_recovery.md section 3: `SERVICE` with no frame. IDLE writes nothing but `seq` (the spec's
decision D23); ADDRESS_MISMATCH is reported and the receiver recovered. -/
def Obligations.ServiceWithoutAFrame : Prop :=
  ∀ s : State, s.seq = .service →
    (s.frameSignal = .idle → exec .service s = .next { s with seq := .sample }) ∧
    (s.frameSignal = .addressMismatch → exec .service s = .next { s with
      seq := .sample, byteCnt := 0#4, frameSignal := .idle, rxIrqEn := true,
      txLog := s.txLog ++ [.rxReset], svcLog := s.svcLog ++ [.addressMismatch] })

/-- R84, R85: a complete frame that is not accepted. A CRC mismatch is dropped silently without a receiver reset; an
unsupported request resets the receiver; nothing is transmitted. -/
def Obligations.ServiceOfARejectedFrame : Prop :=
  ∀ (s : State) (f : Frame), s.seq = .service → s.frameSignal = .framePending → s.byteCnt = 8#4 →
    readFrame s.frameBuf = .ok f →
    (verdictOf f = .crcMismatch → exec .service s = .next { s with
      seq := .sample, byteCnt := 0#4, frameSignal := .idle, rxIrqEn := true,
      svcLog := s.svcLog ++ [.crcMismatch] }) ∧
    (∀ q fc, verdictOf f = .unsupportedRequest q fc → exec .service s = .next { s with
      seq := .sample, byteCnt := 0#4, frameSignal := .idle, rxIrqEn := true,
      txLog := s.txLog ++ [.rxReset], svcLog := s.svcLog ++ [.unsupportedRequest q fc] })

/-- R86: a complete accepted frame is answered by one response for the address in `frame_buf[0]`, with the requested number
of registers or all seven (`RESP_COUNT_MODE`), carrying the registers as they stand. -/
def Obligations.ServiceOfAnAcceptedFrame : Prop :=
  ∀ (s : State) (f : Frame) (q : Half), s.seq = .service → s.frameSignal = .framePending → s.byteCnt = 8#4 →
    readFrame s.frameBuf = .ok f → verdictOf f = .accept q → ∃ n : Nat,
    (s.cfg.respCountMode = .requested → n = q.toNat) ∧ (s.cfg.respCountMode = .fixed7 → n = 7) ∧
    exec .service s = .next { s with
      seq := .sample, byteCnt := 0#4, frameSignal := .idle, rxIrqEn := true, txEn := false,
      txLog := s.txLog ++ ([.de true] ++ (respBuild f.address n s.x).map TxEvent.tx ++ [.de false]),
      svcLog := s.svcLog ++ [.responded q] }

/-- 45_recovery.md section 3 (the guarantee): every `SERVICE` that is taken completes and leaves the block listening. -/
def Obligations.EveryServiceTakenLeavesTheBlockListening : Prop :=
  ∀ s : State, BlockInv s → ServiceEnabled s → ∃ t, exec .service s = .next t ∧ Listening t ∧ t.seq = .sample

/-- Where a step is not enabled it stops by name. The spec says that `SERVICE` is held by an incomplete frame (46_main_cycle.md
section 2) and before the sample load of the cycle (section 3), and the sample load while `SERVICE` is due; the agent then
has no step and waits. That `exec` answers a fault there is the model's choice (log 8), and so is the fault of a bare
`COLLECT`, for which there is no ninth index (log 9). -/
def Obligations.HeldStepsStopByName : Prop :=
  (∀ s : State, s.seq = .service → s.frameSignal = .framePending → s.byteCnt.toNat < 8 →
    exec .service s = .fault .serviceHeldPartialFrame) ∧
  (∀ s : State, s.seq = .sample → exec .service s = .fault .awaitingSampleSet) ∧
  (∀ (s : State) (smp : SampleSet), s.seq = .service → exec (.cycle smp) s = .fault .sampleLoadHeld) ∧
  (∀ (s : State) (b : Byte), 8 ≤ s.byteCnt.toNat → exec (.collect b) s = .fault .frameIndexOutOfRange)

/-- R119: `CYCLE s` is `SAMPLE_LOAD s` then `SERVICE`; a held second half is left for when the hold lifts. In the states
of the invariants it always completes, with the sample set loaded and judged. -/
def Obligations.CycleIsSampleLoadThenService : Prop :=
  ∀ (smp : SampleSet) (s : State), s.seq = .sample →
    (∃ t, exec (.sampleLoad smp) s = .next t ∧
      (ServiceEnabled t → exec (.cycle smp) s = exec .service t) ∧
      (¬ ServiceEnabled t → exec (.cycle smp) s = .next t)) ∧
    (BlockInv s → ∃ u, exec (.cycle smp) s = .next u ∧ u.x = smp ∧
      (u.faultEn = true ↔ OutsideThresholds s.cfg smp) ∧ u.normalEn = !u.faultEn)

/-! ### Requests on the line -/

/-- 30_encoding.md section 7: in every state, `REQ` is the eight `RX_BYTE` events of the bytes `a f ssHi ssLo qqHi qqLo crcLo
crcHi`, the last two the CRC of the first six (the spec's script notation, D24), so it writes the receiver's state alone;
addressed to a listening block it stands complete in the buffer. -/
def Obligations.ReqDeliversARequestWithItsCrc : Prop :=
  ∀ (a f : Byte) (ss qq c : Half) (m : List Byte) (s : State),
    m = [a, f, ss.extractLsb' 8 8, ss.extractLsb' 0 8, qq.extractLsb' 8 8, qq.extractLsb' 0 8] → c = crcOf m →
    (∃ t, exec (.req a f ss qq) s = .next t ∧ RxBytes (m ++ [c.extractLsb' 0 8, c.extractLsb' 8 8]) s t ∧
      t = { s with rxIrqEn := t.rxIrqEn, frameSignal := t.frameSignal, frameBuf := t.frameBuf, byteCnt := t.byteCnt }) ∧
    (Listening s → a = s.cfg.slaveAddr → ∃ t g, exec (.req a f ss qq) s = .next t ∧
      t.rxIrqEn = false ∧ t.frameSignal = .framePending ∧ t.byteCnt = 8#4 ∧ readFrame t.frameBuf = .ok g ∧
      g.address = a ∧ g.function = f ∧ joinBytes g.startHi g.startLo = ss ∧ joinBytes g.qtyHi g.qtyLo = qq ∧
      joinBytes g.crcHi g.crcLo = c)

/-- 42_frame_validator.md section 2 for the class RIR: a listening block whose turn it is to serve answers the request with
exactly one response, stores the eight bytes and changes nothing else. The class is executed as its whole transaction
(log 3). -/
def Obligations.ReadRequestIsAnsweredOnce : Prop :=
  ∀ (a : Byte) (ss qq : Half) (lo hi : Byte) (s : State),
    Instr.wf s.cfg.slaveAddr (.rir a ss qq lo hi) = true → Listening s → s.seq = .service → ∃ (t : State) (n : Nat),
    (s.cfg.respCountMode = .requested → n = qq.toNat) ∧ (s.cfg.respCountMode = .fixed7 → n = 7) ∧
    exec (.rir a ss qq lo hi) s = .next t ∧
    t = { s with
      frameBuf := t.frameBuf, seq := .sample, txEn := false,
      txLog := s.txLog ++ ([.de true] ++ (respBuild a n s.x).map TxEvent.tx ++ [.de false]),
      svcLog := s.svcLog ++ [.responded qq] } ∧
    readFrame t.frameBuf = .ok (mkFrame a 0x04#8 ss qq lo hi)

/-- 42_frame_validator.md section 5 for the class BAD_CRC: no response, no receiver reset, the mismatch is recorded. The class
is executed as its whole transaction (log 3). -/
def Obligations.BadCrcRequestIsDroppedSilently : Prop :=
  ∀ (a f : Byte) (ss qq : Half) (lo hi : Byte) (s : State),
    Instr.wf s.cfg.slaveAddr (.badCrc a f ss qq lo hi) = true → Listening s → s.seq = .service → ∃ t,
    exec (.badCrc a f ss qq lo hi) s = .next t ∧
    t = { s with frameBuf := t.frameBuf, seq := .sample, svcLog := s.svcLog ++ [.crcMismatch] } ∧
    readFrame t.frameBuf = .ok (mkFrame a f ss qq lo hi)

/-- 42_frame_validator.md section 5 for the class UNSUPPORTED: no response, the receiver is reset. The class is executed as
its whole transaction (log 3). -/
def Obligations.UnsupportedRequestResetsTheReceiver : Prop :=
  ∀ (a f : Byte) (ss qq : Half) (lo hi : Byte) (s : State),
    Instr.wf s.cfg.slaveAddr (.unsupported a f ss qq lo hi) = true → Listening s → s.seq = .service → ∃ t,
    exec (.unsupported a f ss qq lo hi) s = .next t ∧
    t = { s with frameBuf := t.frameBuf, seq := .sample, txLog := s.txLog ++ [.rxReset],
                 svcLog := s.svcLog ++ [.unsupportedRequest qq f] } ∧
    readFrame t.frameBuf = .ok (mkFrame a f ss qq lo hi)

/-- 40_frame_receiver.md section 5 for the class FOREIGN: whatever bytes follow, the frame leaves no trace but the receiver
reset and the mismatch; the buffer is not written. At the start of a cycle the mismatch is recorded and waits for the next
`SERVICE`. The class is executed as its whole transaction (log 3); discarding the bytes is the spec's decision D6. -/
def Obligations.ForeignFrameIsDiscardedAndRecovered : Prop :=
  ∀ (a : Byte) (rest : List Byte) (s : State),
    Instr.wf s.cfg.slaveAddr (.foreign a rest) = true → Listening s →
    (s.seq = .service → exec (.foreign a rest) s = .next { s with
      seq := .sample, txLog := s.txLog ++ [.rxReset], svcLog := s.svcLog ++ [.addressMismatch] }) ∧
    (s.seq = .sample → exec (.foreign a rest) s = .next { s with
      rxIrqEn := false, frameSignal := .addressMismatch })

/-- 46_main_cycle.md section 2 for the class INCOMPLETE: the bytes are collected and the service stays held, on either half of
the cycle; nothing else changes. The class is executed as its
whole transaction (log 3). -/
def Obligations.IncompleteFrameHoldsTheService : Prop :=
  ∀ (a : Byte) (rest : List Byte) (s : State),
    Instr.wf s.cfg.slaveAddr (.incomplete a rest) = true → Listening s → ∃ t,
    exec (.incomplete a rest) s = .next t ∧
    t = { s with rxIrqEn := false, frameSignal := .framePending, byteCnt := BitVec.ofNat 4 (rest.length + 1),
                 frameBuf := t.frameBuf } ∧
    (∀ i v, (a :: rest)[i]? = some v → memRead t.frameBuf i = .ok v) ∧
    (∀ i, rest.length < i → memRead t.frameBuf i = memRead s.frameBuf i) ∧
    ¬ ServiceEnabled t

/-- 46_main_cycle.md section 1 corner case c: a request that completes while it is not MAIN's turn to serve waits, complete, for
the next `SERVICE`. The class is executed as its whole transaction (log 3). -/
def Obligations.RequestWaitsForItsService : Prop :=
  ∀ (a f : Byte) (ss qq : Half) (lo hi : Byte) (s : State) (i : Instr),
    (i = .badCrc a f ss qq lo hi ∨ i = .unsupported a f ss qq lo hi ∨ (i = .rir a ss qq lo hi ∧ f = 0x04#8)) →
    a = s.cfg.slaveAddr → Listening s → s.seq = .sample → ∃ t,
    exec i s = .next t ∧
    t = { s with rxIrqEn := false, frameSignal := .framePending, byteCnt := 8#4, frameBuf := t.frameBuf } ∧
    readFrame t.frameBuf = .ok (mkFrame a f ss qq lo hi)

/-- 20_memory.md section 4: the start address is not examined. Two accepted requests that differ only in it (each with its own
CRC) have the same effect but for the bytes they leave in the frame buffer (the spec's decision D12). The class is executed
as its whole transaction (log 3). -/
def Obligations.StartAddressIsIgnored : Prop :=
  ∀ (a : Byte) (ss ss' qq : Half) (lo hi lo' hi' : Byte) (s : State),
    Instr.wf s.cfg.slaveAddr (.rir a ss qq lo hi) = true → Instr.wf s.cfg.slaveAddr (.rir a ss' qq lo' hi') = true →
    Listening s → ∃ t t',
    exec (.rir a ss qq lo hi) s = .next t ∧ exec (.rir a ss' qq lo' hi') s = .next t' ∧
    t' = { t with frameBuf := t'.frameBuf }

/-- S8 of 95_test_vectors.md and 43_response_builder.md section 1: a sample set is loaded, a listening block is asked for all
seven registers, and the bytes it sends decode back to exactly that sample set. The class RIR is executed as its whole
transaction (log 3). -/
def Obligations.ReadReturnsTheLoadedSampleSet : Prop :=
  ∀ (smp : SampleSet) (ss : Half) (lo hi : Byte) (s : State),
    Instr.wf s.cfg.slaveAddr (.rir s.cfg.slaveAddr ss 7#16 lo hi) = true → Listening s → s.seq = .sample → ∃ t u r,
    exec (.sampleLoad smp) s = .next t ∧ exec (.rir s.cfg.slaveAddr ss 7#16 lo hi) t = .next u ∧
    u.txLog = s.txLog ++ ([.de true] ++ r.map TxEvent.tx ++ [.de false]) ∧
    decodeRsp r = some (.rsp s.cfg.slaveAddr
      [smp.cell0, smp.cell1, smp.cell2, smp.cell3, smp.current, smp.temp0, smp.temp1])

/-! ### The step -/

/-- 46_main_cycle.md section 6: a step runs the operation its stimulus decodes to where that is enabled; where it is not, the
stimulus passes with no effect; a rejected stimulus is refused; with no stimulus the block takes its own `SERVICE` or is
stuck. How stimuli are queued and the names of the faults are the model's choice (log 2, log 8). -/
def Obligations.StepRunsTheDecodedOperation : Prop :=
  (∀ (s : State) (st : Stim) (more left : List Stim) (i : Instr), s.stim = st :: more →
    decode s.cfg.slaveAddr st = .ok (i, left) →
    (Enabled s i = true → step s = exec i { s with stim := left ++ more }) ∧
    (Enabled s i = false → step s = .next { s with stim := left ++ more })) ∧
  (∀ (s : State) (st : Stim) (more : List Stim), s.stim = st :: more →
    decode s.cfg.slaveAddr st = .error .simultaneousStrobes → step s = .refused .simultaneousStrobes) ∧
  (∀ s : State, s.stim = [] → ServiceEnabled s → step s = exec .service s) ∧
  (∀ s : State, s.stim = [] → ¬ ServiceEnabled s →
    step s = .fault (if s.seq = .sample then .awaitingSampleSet else .serviceHeldPartialFrame))

/-- 46_main_cycle.md section 3: the control transitions of the events, from every state of the invariants. -/
def Obligations.ControlFollowsTheTransitionTable : Prop :=
  ∀ s : State, BlockInv s →
    (∃ t, exec .reset s = .next t ∧ controlOf t = (.sample, .idle, 0#4)) ∧
    (∀ b, ∃ t, exec (.rxByte b) s = .next t ∧ controlOf t =
      (match s.frameSignal with
        | .idle => if b = s.cfg.slaveAddr then (s.seq, .framePending, 1#4) else (s.seq, .addressMismatch, 0#4)
        | .framePending => if s.byteCnt = 8#4 then controlOf s else (s.seq, .framePending, s.byteCnt + 1#4)
        | .addressMismatch => controlOf s)) ∧
    (∀ smp, s.seq = .sample → ∃ t, exec (.sampleLoad smp) s = .next t ∧
      controlOf t = (.service, s.frameSignal, s.byteCnt)) ∧
    (s.seq = .service → (s.frameSignal = .framePending → s.byteCnt = 8#4) → ∃ t, exec .service s = .next t ∧
      controlOf t = (.sample, .idle, 0#4))

/-! ### Invariants and rules of the whole machine -/

/-- 10_state.md section 9: the invariants hold at reset. -/
def Obligations.ResetStateMeetsTheInvariants : Prop := BlockInv State.reset

/-- 10_state.md section 9: from every state of the invariants, whatever is presented, a step leads to a state of the
invariants. -/
def Obligations.EveryStepKeepsTheInvariants : Prop :=
  ∀ s t : State, BlockInv s → step s = .next t → BlockInv t

/-- 60_exceptions.md section 12: from a state of the invariants no input makes the block stop. A step completes, or two events
were presented at once, or nothing is presented and MAIN has no step. How stimuli are presented is the model's choice
(log 2), and so are the names of the faults (log 8). -/
def Obligations.BlockStopsOnlyWhenMisusedOrStarved : Prop :=
  ∀ s : State, BlockInv s →
    (∃ t, step s = .next t) ∨
    (∃ b smp more, s.stim = .edge 0b011#3 b smp :: more ∧ step s = .refused .simultaneousStrobes) ∨
    (s.stim = [] ∧ s.seq = .sample ∧ step s = .fault .awaitingSampleSet) ∨
    (s.stim = [] ∧ s.seq = .service ∧ PartialFrame s ∧ step s = .fault .serviceHeldPartialFrame)

/-- R94 and R55: the line carries nothing but receiver resets and whole response frames under transmit-enable. -/
def Obligations.LineCarriesOnlyWholeResponses : Prop :=
  WireLog State.reset.txLog ∧ ∀ s t : State, WireLog s.txLog → step s = .next t → WireLog t.txLog

/-- U2 of 93_implementation_defined.md (decision D11): what the spec leaves unspecified is never read. Two states that agree
up to it take the same step to states that agree up to it, with the same outputs and histories. -/
def Obligations.UnspecifiedValuesNeverShow : Prop :=
  ∀ s t s' : State, SameUpToUnspecified s t → step s = .next s' →
    ∃ t', step t = .next t' ∧ SameUpToUnspecified s' t'

/-- 10_state.md section 4: no operation changes the configuration constants. That none changes the stimuli still to be
presented either is about the model's own queue (log 2). -/
def Obligations.ConfigurationIsFixed : Prop :=
  ∀ (i : Instr) (s t : State), exec i s = .next t → t.cfg = s.cfg ∧ t.stim = s.stim

/-- Every operation keeps the frame buffer in canonical form (log 6). -/
def Obligations.BufferKeepsItsCanonicalForm : Prop :=
  ∀ (i : Instr) (s t : State), Memory.wf s.frameBuf = true → exec i s = .next t → Memory.wf t.frameBuf = true

/-- 44_protection.md section 8: exactly one output is enabled, before and after every operation. -/
def Obligations.OutputsStayExclusive : Prop :=
  ∀ (i : Instr) (s t : State), s.normalEn = !s.faultEn → exec i s = .next t → t.normalEn = !t.faultEn

/-- 10_state.md section 1, the column "writer", and section 8 for the two histories: an operation that runs none of the listed
writers of an element leaves that element as it is. Besides, `tx_en` is after every operation what it was or 0, and the
histories are only appended to until `RESET`. A frame class runs the writers of its bytes and its service (log 3); the
clause on `result` is about the model's own field (log 4). -/
def Obligations.OnlyTheListedWritersChangeAnElement : Prop :=
  ∀ (i : Instr) (s t : State), exec i s = .next t →
    (RunsNone i [.addrFilter, .rearm, .recover, .reset] → t.frameSignal = s.frameSignal ∧ t.rxIrqEn = s.rxIrqEn) ∧
    (RunsNone i [.addrFilter, .collect] → t.frameBuf = s.frameBuf) ∧
    (RunsNone i [.addrFilter, .collect, .rearm, .recover, .reset] → t.byteCnt = s.byteCnt) ∧
    (RunsNone i [.sampleLoad] → t.x = s.x) ∧
    (RunsNone i [.driveOutputs, .reset] → t.normalEn = s.normalEn ∧ t.faultEn = s.faultEn) ∧
    (RunsNone i [.transmit, .reset] → t.txEn = s.txEn) ∧
    (RunsNone i [.sampleLoad, .service, .reset] → t.seq = s.seq) ∧
    (RunsNone i [.transmit, .recover, .reset] → t.txLog = s.txLog) ∧
    (RunsNone i [.service, .reset] → t.svcLog = s.svcLog) ∧
    (RunsNone i [.function, .reset] → t.result = s.result) ∧
    (t.txEn = s.txEn ∨ t.txEn = false) ∧
    (i ≠ .reset → List.IsPrefix s.txLog t.txLog ∧ List.IsPrefix s.svcLog t.svcLog)

/-- 70_reset_and_hazards.md section 3: an incomplete frame freezes the protection function. While `SERVICE` is held, no step
but a reset changes the outputs or the registers they were judged from. The edges are those of the
model's queue (log 2). -/
def Obligations.IncompleteFrameFreezesTheOutputs : Prop :=
  ∀ s t : State, s.seq = .service → PartialFrame s →
    (∀ ev b smp more, s.stim = .edge ev b smp :: more → ev.getLsbD 2 = false) → step s = .next t →
    t.faultEn = s.faultEn ∧ t.normalEn = s.normalEn ∧ t.x = s.x

/-- 46_main_cycle.md section 2: the bytes that bring `byte_cnt` to 8, and no fewer, lift the hold of `SERVICE`. The bytes are
presented as edges in the model's queue (log 2). -/
def Obligations.RemainingBytesLiftTheHold : Prop :=
  ∀ (s : State) (bs : List Byte) (smp : SampleSet), s.seq = .service → s.frameSignal = .framePending →
    s.rxIrqEn = false → s.byteCnt.toNat + bs.length ≤ 8 → s.stim = bs.map (fun b => Stim.edge 0b010#3 b smp) →
    ∃ t : State, Host.Core.run core bs.length s = .next t ∧
      (ServiceEnabled t ↔ s.byteCnt.toNat + bs.length = 8) ∧
      t.faultEn = s.faultEn ∧ t.normalEn = s.normalEn ∧ t.x = s.x

/-- 30_encoding.md section 3: in every state, whatever the block is doing, a frame class is the `RX_BYTE` events of its bytes in
order and then `SERVICE`, where that is MAIN's next step and not held. Executing a class as this whole transaction is the
model's choice (log 3). -/
def Obligations.FrameClassesAreTheirBytesThenTheService : Prop :=
  ∀ (i : Instr) (b : Byte) (rest : List Byte) (s : State), encode i = some (.line b rest) → ∃ t,
    RxBytes (b :: rest) s t ∧ (ServiceEnabled t → exec i s = exec .service t) ∧ (¬ ServiceEnabled t → exec i s = .next t)
end

