-- ==== Sys2Proof/Laws/Bytes.lean ====
section
/-! SUPPORT. Byte order and frame fields: splitting and joining halves, reading a frame's fields back, the payload of a
response and its length. -/

namespace Sys2Proof.Machine

theorem getLsbD_joinBytes (a b : Byte) (i : Nat) :
    (joinBytes a b).getLsbD i = if i < 8 then b.getLsbD i else a.getLsbD (i - 8) :=
  (BitVec.getLsbD_append (x := a) (y := b) (i := i)).trans (by split <;> rfl)

@[simp] theorem joinBytes_hi_lo (v : Half) : joinBytes (hiByte v) (loByte v) = v := by
  refine BitVec.eq_of_getLsbD_eq fun i hi => ?_
  rw [getLsbD_joinBytes]
  split
  · next h => simp [loByte, h]
  · next h => simp [hiByte, show i - 8 < 8 by omega, show 8 + (i - 8) = i by omega]

@[simp] theorem hiByte_joinBytes (a b : Byte) : hiByte (joinBytes a b) = a := by
  refine BitVec.eq_of_getLsbD_eq fun i hi => ?_
  simp [hiByte, hi, getLsbD_joinBytes]

@[simp] theorem loByte_joinBytes (a b : Byte) : loByte (joinBytes a b) = b := by
  refine BitVec.eq_of_getLsbD_eq fun i hi => ?_
  simp [loByte, hi, getLsbD_joinBytes]

@[simp] theorem quantityOf_mkFrame (a f : Byte) (ss qq : Half) (lo hi : Byte) :
    quantityOf (mkFrame a f ss qq lo hi) = qq := by simp [quantityOf, mkFrame]

@[simp] theorem startAddrOf_mkFrame (a f : Byte) (ss qq : Half) (lo hi : Byte) :
    startAddrOf (mkFrame a f ss qq lo hi) = ss := by simp [startAddrOf, mkFrame]

/-- A frame is made of its fields. -/
theorem mkFrame_fields (f : Frame) :
    mkFrame f.address f.function (startAddrOf f) (quantityOf f) f.crcLo f.crcHi = f := by
  cases f; simp [mkFrame, startAddrOf, quantityOf]

@[simp] theorem frameHead_length (f : Frame) : (frameHead f).length = crcSpanReq := rfl

@[simp] theorem frameBytes_length (f : Frame) : (frameBytes f).length = reqLen := rfl

/-- The CRC bytes of a frame are no part of the span the CRC is taken over. -/
theorem frameHead_mkFrame_crc (a f : Byte) (ss qq : Half) (lo hi lo' hi' : Byte) :
    frameHead (mkFrame a f ss qq lo hi) = frameHead (mkFrame a f ss qq lo' hi') := rfl

@[simp] theorem regsOf_length (x : SampleSet) : (regsOf x).length = regCount := rfl

@[simp] theorem payloadOf_length (vs : List S16) : (payloadOf vs).length = 2 * vs.length := by
  induction vs with
  | nil => rfl
  | cons v vs ih => simp [payloadOf, ih]; omega

/-- A payload read back gives the registers it was made of (R91). -/
@[simp] theorem regsOfPayload_payloadOf (vs : List S16) : regsOfPayload (payloadOf vs) = some vs := by
  induction vs with
  | nil => rfl
  | cons v vs ih => simp [payloadOf, regsOfPayload, ih]

@[simp] theorem appendCrc_length (m : List Byte) : (appendCrc m).length = m.length + 2 := by simp [appendCrc]

/-- A response frame has 5 + 2n bytes (R52). -/
@[simp] theorem rspFrame_length (a : Byte) (regs : List S16) : (rspFrame a regs).length = 5 + 2 * regs.length := by
  simp [rspFrame]; omega

/-- `VALIDATE` by its three cases (R83). -/
theorem verdictOf_cases (f : Frame) :
    (crcCheck f = false ∧ verdictOf f = .crcMismatch) ∨
    (crcCheck f = true ∧ unsupportedFields f = true ∧ verdictOf f = .unsupportedRequest (quantityOf f) f.function) ∨
    (crcCheck f = true ∧ unsupportedFields f = false ∧ verdictOf f = .accept (quantityOf f)) := by
  unfold verdictOf
  cases crcCheck f <;> cases unsupportedFields f <;> simp

end Sys2Proof.Machine
end

