-- ==== Sys2Proof/Laws/Crc.lean ====
section
/-! SUPPORT. The CRC engine: the shift is linear over exclusive or, and what it does to the two halves of the register. -/

namespace Sys2Proof.Machine

theorem crcShift_xor (a b : Half) : crcShift (a ^^^ b) = crcShift a ^^^ crcShift b := by
  unfold crcShift
  simp only [BitVec.getLsbD_xor]
  cases a.getLsbD 0 <;> cases b.getLsbD 0 <;> simp <;> ext i hi <;> simp
  · cases (40961#16)[i] <;> cases a.getLsbD (1 + i) <;> cases b.getLsbD (1 + i) <;> rfl
  · cases (40961#16)[i] <;> cases a.getLsbD (1 + i) <;> cases b.getLsbD (1 + i) <;> rfl

/-- Iterating the shift is linear (R75 corner case b, the linearity it names). -/
theorem crcShiftN_xor (n : Nat) (a b : Half) : crcShiftN n (a ^^^ b) = crcShiftN n a ^^^ crcShiftN n b := by
  induction n generalizing a b with
  | zero => rfl
  | succ n ih => simp [crcShiftN, crcShift_xor, ih]

/-- The high byte is shifted down by eight iterations, with no 1 shifted out. -/
theorem crcShiftN_highByte (h : Byte) : crcShiftN 8 (joinBytes h 0#8) = h.setWidth 16 := by
  revert h; decide +kernel

/-- The CRC of a sequence and one more byte. -/
theorem crcOf_append (m n : List Byte) : crcOf (m ++ n) = n.foldl crcUpdate (crcOf m) := by simp [crcOf]

/-- `CRC_CHECK` compares the CRC with `crcRx = f[7] ++ f[6]` (R48, R77). -/
theorem crcCheck_iff_crcRx (f : Frame) : crcCheck f = true ↔ crcOf (frameHead f) = crcRxOf f := by
  rw [crcCheck, decide_eq_true_eq, crcRxOf]
  constructor
  · rintro ⟨h1, h2⟩; rw [← h1, ← h2]; simp
  · intro h; rw [h]; simp

/-- The request of `REQ` carries its own CRC (R62). -/
theorem crcCheck_reqFrame (a f : Byte) (ss qq : Half) : crcCheck (reqFrame a f ss qq) = true := by
  rw [crcCheck_iff_crcRx]
  show _ = joinBytes (hiByte _) (loByte _)
  rw [joinBytes_hi_lo]
  rfl

end Sys2Proof.Machine
end

