-- ==== Sys2Proof/Laws/PerInstr.lean ====
section
/-! SUPPORT. Per-operation facts about the operations as terms: which rows of spec/opcode_table.json have an input
encoding (R64: events, request frames and script pseudo-operations have one; the response, functions and
micro-operations have none). -/

namespace Sys2Proof.Laws.InputEncoding

/-- The rows the environment can present as words. -/
def presentable : Instr → Bool
  | .rir _ _ _ _ _ | .badCrc _ _ _ _ _ _ | .unsupported _ _ _ _ _ _ | .foreign _ _ | .incomplete _ _ => true
  | .reset | .rxByte _ | .sampleLoad _ | .service | .cycle _ | .req _ _ _ _ => true
  | .rsp _ _ | .addrFilter _ | .collect _ | .crc16Init | .crc16Update _ _ | .crc16 _ | .crcCheck _ => false
  | .validate _ | .respBuild _ _ _ | .transmit _ | .protect _ | .driveOutputs _ | .recover | .rearm => false

/-- The encoder has words for exactly the presentable rows. -/
def Statement (i : Instr) : Prop := (encode i).isSome = presentable i

theorem rir (a : Byte) (ss qq : Half) (lo hi : Byte) : Statement (.rir a ss qq lo hi) := rfl
theorem badCrc (a f : Byte) (ss qq : Half) (lo hi : Byte) : Statement (.badCrc a f ss qq lo hi) := rfl
theorem unsupported (a f : Byte) (ss qq : Half) (lo hi : Byte) : Statement (.unsupported a f ss qq lo hi) := rfl
theorem foreign (a : Byte) (rest : List Byte) : Statement (.foreign a rest) := rfl
theorem incomplete (a : Byte) (rest : List Byte) : Statement (.incomplete a rest) := rfl
theorem rsp (a : Byte) (regs : List S16) : Statement (.rsp a regs) := rfl
theorem reset : Statement .reset := rfl
theorem rxByte (b : Byte) : Statement (.rxByte b) := rfl
theorem sampleLoad (smp : SampleSet) : Statement (.sampleLoad smp) := rfl
theorem service : Statement .service := rfl
theorem cycle (smp : SampleSet) : Statement (.cycle smp) := rfl
theorem req (a f : Byte) (ss qq : Half) : Statement (.req a f ss qq) := rfl
theorem addrFilter (b : Byte) : Statement (.addrFilter b) := rfl
theorem collect (b : Byte) : Statement (.collect b) := rfl
theorem crc16Init : Statement .crc16Init := rfl
theorem crc16Update (c : Half) (b : Byte) : Statement (.crc16Update c b) := rfl
theorem crc16 (m : List Byte) : Statement (.crc16 m) := rfl
theorem crcCheck (f : Frame) : Statement (.crcCheck f) := rfl
theorem validate (f : Frame) : Statement (.validate f) := rfl
theorem respBuild (a : Byte) (n : Fin 8) (x : SampleSet) : Statement (.respBuild a n x) := rfl
theorem transmit (r : List Byte) : Statement (.transmit r) := rfl
theorem protect (smp : SampleSet) : Statement (.protect smp) := rfl
theorem driveOutputs (f : Bool) : Statement (.driveOutputs f) := rfl
theorem recover : Statement .recover := rfl
theorem rearm : Statement .rearm := rfl

end Sys2Proof.Laws.InputEncoding
end

