-- ==== Sys2Proof/Laws/Encoding.lean ====
section
/-! SUPPORT. The decoder: what it can answer, and the constraints of the frame classes spelled out (R49). -/

namespace Sys2Proof

open Machine

theorem wf_rir_iff (addr a : Byte) (ss qq : Half) (lo hi : Byte) :
    Instr.wf addr (.rir a ss qq lo hi) = true ↔
      a = addr ∧ crcCheck (mkFrame a funcRir ss qq lo hi) = true ∧ qq.toNat ≤ regCount := by
  simp [Instr.wf, and_assoc]

theorem wf_badCrc_iff (addr a f : Byte) (ss qq : Half) (lo hi : Byte) :
    Instr.wf addr (.badCrc a f ss qq lo hi) = true ↔ a = addr ∧ crcCheck (mkFrame a f ss qq lo hi) = false := by
  simp [Instr.wf]

theorem wf_unsupported_iff (addr a f : Byte) (ss qq : Half) (lo hi : Byte) :
    Instr.wf addr (.unsupported a f ss qq lo hi) = true ↔
      a = addr ∧ crcCheck (mkFrame a f ss qq lo hi) = true ∧ (regCount < qq.toNat ∨ f ≠ funcRir) := by
  simp [Instr.wf, and_assoc]

theorem wf_foreign_iff (addr a : Byte) (rest : List Byte) :
    Instr.wf addr (.foreign a rest) = true ↔ a ≠ addr := by simp [Instr.wf]

theorem wf_incomplete_iff (addr a : Byte) (rest : List Byte) :
    Instr.wf addr (.incomplete a rest) = true ↔ a = addr ∧ rest.length < 7 := by
  simp only [Instr.wf, reqLen, Bool.and_eq_true, decide_eq_true_eq]
  constructor <;> rintro ⟨rfl, h⟩ <;> exact ⟨rfl, by omega⟩

/-- The decoder answers only operations the environment can present (R64). -/
theorem decode_presentable {addr : Byte} {st : Stim} {i : Instr} {left : List Stim}
    (h : decode addr st = .ok (i, left)) : Laws.InputEncoding.presentable i = true := by
  cases st with
  | edge ev b smp =>
    simp only [decode, decodeEdge] at h
    split at h
    · cases h; rfl
    · split at h
      · cases h; rfl
      · split at h
        · cases h; rfl
        · split at h <;> cases h
          rfl
  | cycle => cases h; rfl
  | req => cases h; rfl
  | line a rest =>
    simp only [decode, decodeLine] at h
    split at h
    · split at h
      · cases h
        simp only [classOf]
        split <;> rfl
      · cases h; rfl
    · cases h; rfl

end Sys2Proof
end

