-- ==== Sys2Proof/Laws/Memory.lean ====
section
/-! SUPPORT. The frame buffer: read after write, a write leaves every other index alone, the canonical form is kept and
determines the contents. -/

namespace Sys2Proof.Machine

@[simp] theorem memLookup_memStore_same (m : Memory) (i : Nat) (v : Byte) :
    memLookup (memStore m i v) i = some v := by
  induction m with
  | nil => simp [memStore, memLookup]
  | cons c m ih =>
    unfold memStore
    split
    · simp [memLookup]
    · split
      · simp [memLookup]
      · next hlt hne => simp [memLookup, ih, Ne.symm hne]

theorem memLookup_memStore_other (m : Memory) {i j : Nat} (v : Byte) (h : j ≠ i) :
    memLookup (memStore m i v) j = memLookup m j := by
  induction m with
  | nil => simp [memStore, memLookup, Ne.symm h]
  | cons c m ih =>
    unfold memStore
    split
    · simp [memLookup, Ne.symm h]
    · split
      · next heq => subst heq; simp [memLookup, Ne.symm h]
      · simp [memLookup, ih]

theorem memLookup_memStore (m : Memory) (i j : Nat) (v : Byte) :
    memLookup (memStore m i v) j = if j = i then some v else memLookup m j := by
  split
  · next h => subst h; simp
  · next h => exact memLookup_memStore_other m v h

theorem mem_memStore {m : Memory} {i : Nat} {v : Byte} {d : Host.Cell} (h : d ∈ memStore m i v) :
    d.1 = i ∨ d ∈ m := by
  induction m with
  | nil => simp [memStore] at h; simp [h]
  | cons c m ih =>
    unfold memStore at h
    split at h
    · rcases List.mem_cons.1 h with rfl | h
      · exact .inl rfl
      · exact .inr h
    · split at h
      · rcases List.mem_cons.1 h with rfl | h
        · exact .inl rfl
        · exact .inr (List.mem_cons_of_mem _ h)
      · rcases List.mem_cons.1 h with rfl | h
        · exact .inr List.mem_cons_self
        · exact (ih h).imp id (List.mem_cons_of_mem _)

theorem Memory.wf_cons (c : Host.Cell) (m : Memory) :
    Memory.wf (c :: m) = true ↔ c.1 < reqLen ∧ (∀ d ∈ m, c.1 < d.1) ∧ Memory.wf m = true := by
  simp [Memory.wf, and_assoc]

/-- Every store to an index of the buffer keeps the canonical form. -/
theorem memStore_wf {m : Memory} {i : Nat} (v : Byte) (hi : i < reqLen) (h : Memory.wf m = true) :
    Memory.wf (memStore m i v) = true := by
  induction m with
  | nil => simp [memStore, Memory.wf, hi]
  | cons c m ih =>
    obtain ⟨hc, hall, hm⟩ := (Memory.wf_cons c m).1 h
    unfold memStore
    split
    · next hlt =>
      refine (Memory.wf_cons _ _).2 ⟨hi, ?_, h⟩
      intro d hd
      rcases List.mem_cons.1 hd with rfl | hd
      · exact hlt
      · exact Nat.lt_trans hlt (hall d hd)
    · split
      · next heq => exact (Memory.wf_cons _ _).2 ⟨hi, fun d hd => heq ▸ hall d hd, hm⟩
      · next hlt hne =>
        refine (Memory.wf_cons _ _).2 ⟨hc, ?_, ih hm⟩
        intro d hd
        rcases mem_memStore hd with hd | hd
        · omega
        · exact hall d hd

theorem memLookup_none_of_below {m : Memory} {i : Nat} (h : ∀ d ∈ m, i < d.1) : memLookup m i = none := by
  induction m with
  | nil => rfl
  | cons c m ih =>
    have hc := h c List.mem_cons_self
    simp [memLookup, Nat.ne_of_gt hc, ih fun d hd => h d (List.mem_cons_of_mem _ hd)]

/-- Equal contents in canonical form are equal data. -/
theorem Memory.eq_of_lookup {m n : Memory} (hm : Memory.wf m = true) (hn : Memory.wf n = true)
    (h : ∀ i, memLookup m i = memLookup n i) : m = n := by
  induction m generalizing n with
  | nil =>
    cases n with
    | nil => rfl
    | cons c n => simpa [memLookup] using h c.1
  | cons c m ih =>
    obtain ⟨_, hall, hm'⟩ := (Memory.wf_cons c m).1 hm
    cases n with
    | nil => simpa [memLookup] using h c.1
    | cons d n =>
      obtain ⟨_, hall', hn'⟩ := (Memory.wf_cons d n).1 hn
      have hcd : c.1 = d.1 := by
        rcases Nat.lt_trichotomy c.1 d.1 with hlt | heq | hgt
        · have := h c.1
          rw [memLookup_none_of_below (m := d :: n)] at this
          · simp [memLookup] at this
          · intro e he
            rcases List.mem_cons.1 he with rfl | he
            · exact hlt
            · exact Nat.lt_trans hlt (hall' e he)
        · exact heq
        · have := h d.1
          rw [memLookup_none_of_below (m := c :: m)] at this
          · simp [memLookup] at this
          · intro e he
            rcases List.mem_cons.1 he with rfl | he
            · exact hgt
            · exact Nat.lt_trans hgt (hall e he)
      have hv : c.2 = d.2 := by simpa [memLookup, hcd] using h c.1
      have htail : m = n := by
        refine ih hm' hn' fun i => ?_
        by_cases hi : c.1 = i
        · rw [memLookup_none_of_below (fun e he => hi ▸ hall e he),
            memLookup_none_of_below (fun e he => hi ▸ hcd ▸ hall' e he)]
        · have := h i
          rw [hcd] at hi
          simpa [memLookup, hi, hcd] using this
      exact List.cons_eq_cons.2 ⟨Prod.ext hcd hv, htail⟩

/-- A byte read succeeds exactly where the index exists and something has written it. -/
theorem memRead_ok_iff (m : Memory) (i : Nat) (v : Byte) :
    memRead m i = .ok v ↔ i < reqLen ∧ memLookup m i = some v := by
  unfold memRead
  split
  · next h => cases hl : memLookup m i <;> simp [h]
  · next h => simp [h]

/-- The frame read has a value exactly where all eight bytes have. -/
theorem readFrame_ok_iff (m : Memory) (f : Frame) :
    readFrame m = .ok f ↔
      memLookup m 0 = some f.address ∧ memLookup m 1 = some f.function ∧ memLookup m 2 = some f.startHi ∧
      memLookup m 3 = some f.startLo ∧ memLookup m 4 = some f.qtyHi ∧ memLookup m 5 = some f.qtyLo ∧
      memLookup m 6 = some f.crcLo ∧ memLookup m 7 = some f.crcHi := by
  cases f
  unfold readFrame memRead
  cases memLookup m 0 <;> cases memLookup m 1 <;> cases memLookup m 2 <;> cases memLookup m 3 <;>
    cases memLookup m 4 <;> cases memLookup m 5 <;> cases memLookup m 6 <;> cases memLookup m 7 <;>
    simp [reqLen]

/-- The frame read stops only for an unwritten byte. -/
theorem readFrame_error (m : Memory) (e : Fault) (h : readFrame m = .error e) : e = .frameByteUnwritten := by
  unfold readFrame at h
  split at h <;> simp_all

/-- All eight bytes written: the frame read succeeds. -/
theorem readFrame_of_written {m : Memory} (h : ∀ i, i < reqLen → (memLookup m i).isSome) :
    ∃ f, readFrame m = .ok f := by
  have get (i : Nat) (hi : i < reqLen) : ∃ v, memLookup m i = some v := Option.isSome_iff_exists.1 (h i hi)
  obtain ⟨b0, h0⟩ := get 0 (by decide)
  obtain ⟨b1, h1⟩ := get 1 (by decide)
  obtain ⟨b2, h2⟩ := get 2 (by decide)
  obtain ⟨b3, h3⟩ := get 3 (by decide)
  obtain ⟨b4, h4⟩ := get 4 (by decide)
  obtain ⟨b5, h5⟩ := get 5 (by decide)
  obtain ⟨b6, h6⟩ := get 6 (by decide)
  obtain ⟨b7, h7⟩ := get 7 (by decide)
  exact ⟨⟨b0, b1, b2, b3, b4, b5, b6, b7⟩, (readFrame_ok_iff m _).2 ⟨h0, h1, h2, h3, h4, h5, h6, h7⟩⟩

/-- The frame read looks at indices 0 to 7 only. -/
theorem readFrame_congr {m n : Memory} (h : ∀ i, i < reqLen → memLookup m i = memLookup n i) :
    readFrame m = readFrame n := by
  have get (i : Nat) (hi : i < reqLen) : memRead m i = memRead n i := by simp [memRead, h i hi]
  simp [readFrame, get 0 (by decide), get 1 (by decide), get 2 (by decide), get 3 (by decide), get 4 (by decide),
    get 5 (by decide), get 6 (by decide), get 7 (by decide)]

end Sys2Proof.Machine
end

