-- ==== Sys2Proof/Laws/State.lean ====
section
/-! SUPPORT. The state under each shared update: one lemma per field, true by `rfl`, so that no proof unfolds an update. -/

namespace Sys2Proof.Machine

/-! ### `raiseCondition` -/

@[simp] theorem raiseCondition_frameSignal (e : SvcEvent) (s : State) : (raiseCondition e s).frameSignal = s.frameSignal := rfl
@[simp] theorem raiseCondition_rxIrqEn (e : SvcEvent) (s : State) : (raiseCondition e s).rxIrqEn = s.rxIrqEn := rfl
@[simp] theorem raiseCondition_frameBuf (e : SvcEvent) (s : State) : (raiseCondition e s).frameBuf = s.frameBuf := rfl
@[simp] theorem raiseCondition_byteCnt (e : SvcEvent) (s : State) : (raiseCondition e s).byteCnt = s.byteCnt := rfl
@[simp] theorem raiseCondition_x (e : SvcEvent) (s : State) : (raiseCondition e s).x = s.x := rfl
@[simp] theorem raiseCondition_normalEn (e : SvcEvent) (s : State) : (raiseCondition e s).normalEn = s.normalEn := rfl
@[simp] theorem raiseCondition_faultEn (e : SvcEvent) (s : State) : (raiseCondition e s).faultEn = s.faultEn := rfl
@[simp] theorem raiseCondition_txEn (e : SvcEvent) (s : State) : (raiseCondition e s).txEn = s.txEn := rfl
@[simp] theorem raiseCondition_seq (e : SvcEvent) (s : State) : (raiseCondition e s).seq = s.seq := rfl
@[simp] theorem raiseCondition_txLog (e : SvcEvent) (s : State) : (raiseCondition e s).txLog = s.txLog := rfl
@[simp] theorem raiseCondition_svcLog (e : SvcEvent) (s : State) : (raiseCondition e s).svcLog = s.svcLog ++ [e] := rfl
@[simp] theorem raiseCondition_cfg (e : SvcEvent) (s : State) : (raiseCondition e s).cfg = s.cfg := rfl
@[simp] theorem raiseCondition_stim (e : SvcEvent) (s : State) : (raiseCondition e s).stim = s.stim := rfl
@[simp] theorem raiseCondition_result (e : SvcEvent) (s : State) : (raiseCondition e s).result = s.result := rfl

/-! ### `emitTx` -/

@[simp] theorem emitTx_frameSignal (es : List TxEvent) (s : State) : (emitTx es s).frameSignal = s.frameSignal := rfl
@[simp] theorem emitTx_rxIrqEn (es : List TxEvent) (s : State) : (emitTx es s).rxIrqEn = s.rxIrqEn := rfl
@[simp] theorem emitTx_frameBuf (es : List TxEvent) (s : State) : (emitTx es s).frameBuf = s.frameBuf := rfl
@[simp] theorem emitTx_byteCnt (es : List TxEvent) (s : State) : (emitTx es s).byteCnt = s.byteCnt := rfl
@[simp] theorem emitTx_x (es : List TxEvent) (s : State) : (emitTx es s).x = s.x := rfl
@[simp] theorem emitTx_normalEn (es : List TxEvent) (s : State) : (emitTx es s).normalEn = s.normalEn := rfl
@[simp] theorem emitTx_faultEn (es : List TxEvent) (s : State) : (emitTx es s).faultEn = s.faultEn := rfl
@[simp] theorem emitTx_txEn (es : List TxEvent) (s : State) : (emitTx es s).txEn = s.txEn := rfl
@[simp] theorem emitTx_seq (es : List TxEvent) (s : State) : (emitTx es s).seq = s.seq := rfl
@[simp] theorem emitTx_txLog (es : List TxEvent) (s : State) : (emitTx es s).txLog = s.txLog ++ es := rfl
@[simp] theorem emitTx_svcLog (es : List TxEvent) (s : State) : (emitTx es s).svcLog = s.svcLog := rfl
@[simp] theorem emitTx_cfg (es : List TxEvent) (s : State) : (emitTx es s).cfg = s.cfg := rfl
@[simp] theorem emitTx_stim (es : List TxEvent) (s : State) : (emitTx es s).stim = s.stim := rfl
@[simp] theorem emitTx_result (es : List TxEvent) (s : State) : (emitTx es s).result = s.result := rfl

/-! ### `rearmReceiver` -/

@[simp] theorem rearmReceiver_frameSignal (s : State) : (rearmReceiver s).frameSignal = .idle := rfl
@[simp] theorem rearmReceiver_rxIrqEn (s : State) : (rearmReceiver s).rxIrqEn = true := rfl
@[simp] theorem rearmReceiver_frameBuf (s : State) : (rearmReceiver s).frameBuf = s.frameBuf := rfl
@[simp] theorem rearmReceiver_byteCnt (s : State) : (rearmReceiver s).byteCnt = 0#4 := rfl
@[simp] theorem rearmReceiver_x (s : State) : (rearmReceiver s).x = s.x := rfl
@[simp] theorem rearmReceiver_normalEn (s : State) : (rearmReceiver s).normalEn = s.normalEn := rfl
@[simp] theorem rearmReceiver_faultEn (s : State) : (rearmReceiver s).faultEn = s.faultEn := rfl
@[simp] theorem rearmReceiver_txEn (s : State) : (rearmReceiver s).txEn = s.txEn := rfl
@[simp] theorem rearmReceiver_seq (s : State) : (rearmReceiver s).seq = s.seq := rfl
@[simp] theorem rearmReceiver_txLog (s : State) : (rearmReceiver s).txLog = s.txLog := rfl
@[simp] theorem rearmReceiver_svcLog (s : State) : (rearmReceiver s).svcLog = s.svcLog := rfl
@[simp] theorem rearmReceiver_cfg (s : State) : (rearmReceiver s).cfg = s.cfg := rfl
@[simp] theorem rearmReceiver_stim (s : State) : (rearmReceiver s).stim = s.stim := rfl
@[simp] theorem rearmReceiver_result (s : State) : (rearmReceiver s).result = s.result := rfl

/-! ### `recoverReceiver` -/

@[simp] theorem recoverReceiver_frameSignal (s : State) : (recoverReceiver s).frameSignal = .idle := rfl
@[simp] theorem recoverReceiver_rxIrqEn (s : State) : (recoverReceiver s).rxIrqEn = true := rfl
@[simp] theorem recoverReceiver_frameBuf (s : State) : (recoverReceiver s).frameBuf = s.frameBuf := rfl
@[simp] theorem recoverReceiver_byteCnt (s : State) : (recoverReceiver s).byteCnt = 0#4 := rfl
@[simp] theorem recoverReceiver_x (s : State) : (recoverReceiver s).x = s.x := rfl
@[simp] theorem recoverReceiver_normalEn (s : State) : (recoverReceiver s).normalEn = s.normalEn := rfl
@[simp] theorem recoverReceiver_faultEn (s : State) : (recoverReceiver s).faultEn = s.faultEn := rfl
@[simp] theorem recoverReceiver_txEn (s : State) : (recoverReceiver s).txEn = s.txEn := rfl
@[simp] theorem recoverReceiver_seq (s : State) : (recoverReceiver s).seq = s.seq := rfl
@[simp] theorem recoverReceiver_txLog (s : State) : (recoverReceiver s).txLog = s.txLog ++ [.rxReset] := rfl
@[simp] theorem recoverReceiver_svcLog (s : State) : (recoverReceiver s).svcLog = s.svcLog := rfl
@[simp] theorem recoverReceiver_cfg (s : State) : (recoverReceiver s).cfg = s.cfg := rfl
@[simp] theorem recoverReceiver_stim (s : State) : (recoverReceiver s).stim = s.stim := rfl
@[simp] theorem recoverReceiver_result (s : State) : (recoverReceiver s).result = s.result := rfl

/-! ### `transmitBytes` -/

@[simp] theorem transmitBytes_frameSignal (r : List Byte) (s : State) : (transmitBytes r s).frameSignal = s.frameSignal := rfl
@[simp] theorem transmitBytes_rxIrqEn (r : List Byte) (s : State) : (transmitBytes r s).rxIrqEn = s.rxIrqEn := rfl
@[simp] theorem transmitBytes_frameBuf (r : List Byte) (s : State) : (transmitBytes r s).frameBuf = s.frameBuf := rfl
@[simp] theorem transmitBytes_byteCnt (r : List Byte) (s : State) : (transmitBytes r s).byteCnt = s.byteCnt := rfl
@[simp] theorem transmitBytes_x (r : List Byte) (s : State) : (transmitBytes r s).x = s.x := rfl
@[simp] theorem transmitBytes_normalEn (r : List Byte) (s : State) : (transmitBytes r s).normalEn = s.normalEn := rfl
@[simp] theorem transmitBytes_faultEn (r : List Byte) (s : State) : (transmitBytes r s).faultEn = s.faultEn := rfl
@[simp] theorem transmitBytes_txEn (r : List Byte) (s : State) : (transmitBytes r s).txEn = false := rfl
@[simp] theorem transmitBytes_seq (r : List Byte) (s : State) : (transmitBytes r s).seq = s.seq := rfl
@[simp] theorem transmitBytes_txLog (r : List Byte) (s : State) : (transmitBytes r s).txLog = s.txLog ++ ([.de true] ++ r.map TxEvent.tx ++ [.de false]) := rfl
@[simp] theorem transmitBytes_svcLog (r : List Byte) (s : State) : (transmitBytes r s).svcLog = s.svcLog := rfl
@[simp] theorem transmitBytes_cfg (r : List Byte) (s : State) : (transmitBytes r s).cfg = s.cfg := rfl
@[simp] theorem transmitBytes_stim (r : List Byte) (s : State) : (transmitBytes r s).stim = s.stim := rfl
@[simp] theorem transmitBytes_result (r : List Byte) (s : State) : (transmitBytes r s).result = s.result := rfl

/-! ### `driveProtection` -/

@[simp] theorem driveProtection_frameSignal (f : Bool) (s : State) : (driveProtection f s).frameSignal = s.frameSignal := rfl
@[simp] theorem driveProtection_rxIrqEn (f : Bool) (s : State) : (driveProtection f s).rxIrqEn = s.rxIrqEn := rfl
@[simp] theorem driveProtection_frameBuf (f : Bool) (s : State) : (driveProtection f s).frameBuf = s.frameBuf := rfl
@[simp] theorem driveProtection_byteCnt (f : Bool) (s : State) : (driveProtection f s).byteCnt = s.byteCnt := rfl
@[simp] theorem driveProtection_x (f : Bool) (s : State) : (driveProtection f s).x = s.x := rfl
@[simp] theorem driveProtection_normalEn (f : Bool) (s : State) : (driveProtection f s).normalEn = !f := rfl
@[simp] theorem driveProtection_faultEn (f : Bool) (s : State) : (driveProtection f s).faultEn = f := rfl
@[simp] theorem driveProtection_txEn (f : Bool) (s : State) : (driveProtection f s).txEn = s.txEn := rfl
@[simp] theorem driveProtection_seq (f : Bool) (s : State) : (driveProtection f s).seq = s.seq := rfl
@[simp] theorem driveProtection_txLog (f : Bool) (s : State) : (driveProtection f s).txLog = s.txLog := rfl
@[simp] theorem driveProtection_svcLog (f : Bool) (s : State) : (driveProtection f s).svcLog = s.svcLog := rfl
@[simp] theorem driveProtection_cfg (f : Bool) (s : State) : (driveProtection f s).cfg = s.cfg := rfl
@[simp] theorem driveProtection_stim (f : Bool) (s : State) : (driveProtection f s).stim = s.stim := rfl
@[simp] theorem driveProtection_result (f : Bool) (s : State) : (driveProtection f s).result = s.result := rfl

/-! ### `loadSamples` -/

@[simp] theorem loadSamples_frameSignal (smp : SampleSet) (s : State) : (loadSamples smp s).frameSignal = s.frameSignal := rfl
@[simp] theorem loadSamples_rxIrqEn (smp : SampleSet) (s : State) : (loadSamples smp s).rxIrqEn = s.rxIrqEn := rfl
@[simp] theorem loadSamples_frameBuf (smp : SampleSet) (s : State) : (loadSamples smp s).frameBuf = s.frameBuf := rfl
@[simp] theorem loadSamples_byteCnt (smp : SampleSet) (s : State) : (loadSamples smp s).byteCnt = s.byteCnt := rfl
@[simp] theorem loadSamples_x (smp : SampleSet) (s : State) : (loadSamples smp s).x = smp := rfl
@[simp] theorem loadSamples_normalEn (smp : SampleSet) (s : State) : (loadSamples smp s).normalEn = !protectDecision s.cfg smp := rfl
@[simp] theorem loadSamples_faultEn (smp : SampleSet) (s : State) : (loadSamples smp s).faultEn = protectDecision s.cfg smp := rfl
@[simp] theorem loadSamples_txEn (smp : SampleSet) (s : State) : (loadSamples smp s).txEn = s.txEn := rfl
@[simp] theorem loadSamples_seq (smp : SampleSet) (s : State) : (loadSamples smp s).seq = .service := rfl
@[simp] theorem loadSamples_txLog (smp : SampleSet) (s : State) : (loadSamples smp s).txLog = s.txLog := rfl
@[simp] theorem loadSamples_svcLog (smp : SampleSet) (s : State) : (loadSamples smp s).svcLog = s.svcLog := rfl
@[simp] theorem loadSamples_cfg (smp : SampleSet) (s : State) : (loadSamples smp s).cfg = s.cfg := rfl
@[simp] theorem loadSamples_stim (smp : SampleSet) (s : State) : (loadSamples smp s).stim = s.stim := rfl
@[simp] theorem loadSamples_result (smp : SampleSet) (s : State) : (loadSamples smp s).result = s.result := rfl

/-! ### `collectByte` -/

@[simp] theorem collectByte_frameSignal (b : Byte) (s : State) : (collectByte b s).frameSignal = s.frameSignal := rfl
@[simp] theorem collectByte_rxIrqEn (b : Byte) (s : State) : (collectByte b s).rxIrqEn = s.rxIrqEn := rfl
@[simp] theorem collectByte_frameBuf (b : Byte) (s : State) : (collectByte b s).frameBuf = memStore s.frameBuf s.byteCnt.toNat b := rfl
@[simp] theorem collectByte_byteCnt (b : Byte) (s : State) : (collectByte b s).byteCnt = s.byteCnt + 1#4 := rfl
@[simp] theorem collectByte_x (b : Byte) (s : State) : (collectByte b s).x = s.x := rfl
@[simp] theorem collectByte_normalEn (b : Byte) (s : State) : (collectByte b s).normalEn = s.normalEn := rfl
@[simp] theorem collectByte_faultEn (b : Byte) (s : State) : (collectByte b s).faultEn = s.faultEn := rfl
@[simp] theorem collectByte_txEn (b : Byte) (s : State) : (collectByte b s).txEn = s.txEn := rfl
@[simp] theorem collectByte_seq (b : Byte) (s : State) : (collectByte b s).seq = s.seq := rfl
@[simp] theorem collectByte_txLog (b : Byte) (s : State) : (collectByte b s).txLog = s.txLog := rfl
@[simp] theorem collectByte_svcLog (b : Byte) (s : State) : (collectByte b s).svcLog = s.svcLog := rfl
@[simp] theorem collectByte_cfg (b : Byte) (s : State) : (collectByte b s).cfg = s.cfg := rfl
@[simp] theorem collectByte_stim (b : Byte) (s : State) : (collectByte b s).stim = s.stim := rfl
@[simp] theorem collectByte_result (b : Byte) (s : State) : (collectByte b s).result = s.result := rfl

/-! ### `giveResult` -/

@[simp] theorem giveResult_frameSignal (r : FnResult) (s : State) : (giveResult r s).frameSignal = s.frameSignal := rfl
@[simp] theorem giveResult_rxIrqEn (r : FnResult) (s : State) : (giveResult r s).rxIrqEn = s.rxIrqEn := rfl
@[simp] theorem giveResult_frameBuf (r : FnResult) (s : State) : (giveResult r s).frameBuf = s.frameBuf := rfl
@[simp] theorem giveResult_byteCnt (r : FnResult) (s : State) : (giveResult r s).byteCnt = s.byteCnt := rfl
@[simp] theorem giveResult_x (r : FnResult) (s : State) : (giveResult r s).x = s.x := rfl
@[simp] theorem giveResult_normalEn (r : FnResult) (s : State) : (giveResult r s).normalEn = s.normalEn := rfl
@[simp] theorem giveResult_faultEn (r : FnResult) (s : State) : (giveResult r s).faultEn = s.faultEn := rfl
@[simp] theorem giveResult_txEn (r : FnResult) (s : State) : (giveResult r s).txEn = s.txEn := rfl
@[simp] theorem giveResult_seq (r : FnResult) (s : State) : (giveResult r s).seq = s.seq := rfl
@[simp] theorem giveResult_txLog (r : FnResult) (s : State) : (giveResult r s).txLog = s.txLog := rfl
@[simp] theorem giveResult_svcLog (r : FnResult) (s : State) : (giveResult r s).svcLog = s.svcLog := rfl
@[simp] theorem giveResult_cfg (r : FnResult) (s : State) : (giveResult r s).cfg = s.cfg := rfl
@[simp] theorem giveResult_stim (r : FnResult) (s : State) : (giveResult r s).stim = s.stim := rfl
@[simp] theorem giveResult_result (r : FnResult) (s : State) : (giveResult r s).result = r := rfl

end Sys2Proof.Machine
end

