-- ==== Sys2Proof/Laws/Receiver.lean ====
section
/-! SUPPORT. The receiver: what one received byte can do (R67), and what several do to a listening block. -/

namespace Sys2Proof.Machine

/-- Everything one byte can do. -/
theorem receiveByte_cases (b : Byte) (s : State) :
    (s.rxIrqEn = true ∧ b = s.cfg.slaveAddr ∧ receiveByte b s =
      { s with rxIrqEn := false, frameBuf := memStore s.frameBuf 0 b, byteCnt := 1#4, frameSignal := .framePending }) ∨
    (s.rxIrqEn = true ∧ b ≠ s.cfg.slaveAddr ∧ receiveByte b s =
      { s with rxIrqEn := false, byteCnt := 0#4, frameSignal := .addressMismatch }) ∨
    (s.rxIrqEn = false ∧ Collecting s ∧ receiveByte b s = collectByte b s) ∨
    (s.rxIrqEn = false ∧ ¬ Collecting s ∧ receiveByte b s = s) := by
  unfold receiveByte
  cases hi : s.rxIrqEn
  · by_cases hc : Collecting s
    · exact .inr (.inr (.inl ⟨rfl, hc, by rw [if_neg (by simp), if_pos hc]⟩))
    · exact .inr (.inr (.inr ⟨rfl, hc, by rw [if_neg (by simp), if_neg hc]⟩))
  · by_cases ha : b = s.cfg.slaveAddr
    · exact .inl ⟨rfl, ha, by simp [filterByte, ha]⟩
    · exact .inr (.inl ⟨rfl, ha, by simp [filterByte, ha]⟩)

/-- The address filter writes nothing but the receiver's own state (R68, "State written"). -/
theorem filterByte_frame (b : Byte) (s : State) :
    filterByte b s = { s with
      frameSignal := (filterByte b s).frameSignal, rxIrqEn := false,
      frameBuf := (filterByte b s).frameBuf, byteCnt := (filterByte b s).byteCnt } := by
  unfold filterByte
  split <;> rfl

/-- Once the receive interrupt is disabled no received byte enables it (R71). -/
theorem receiveByte_rxIrqEn_off (b : Byte) {s : State} (h : s.rxIrqEn = false) : (receiveByte b s).rxIrqEn = false := by
  rcases receiveByte_cases b s with ⟨hi, _⟩ | ⟨hi, _⟩ | ⟨_, _, he⟩ | ⟨_, _, he⟩
  · simp [h] at hi
  · simp [h] at hi
  · simp [he, h]
  · rw [he, h]

/-- The receiver writes nothing but its own state (R67, "State written"). -/
theorem receiveByte_frame (b : Byte) (s : State) :
    receiveByte b s = { s with
      frameSignal := (receiveByte b s).frameSignal, rxIrqEn := (receiveByte b s).rxIrqEn,
      frameBuf := (receiveByte b s).frameBuf, byteCnt := (receiveByte b s).byteCnt } := by
  rcases receiveByte_cases b s with ⟨_, _, h⟩ | ⟨_, _, h⟩ | ⟨_, _, h⟩ | ⟨_, _, h⟩
  · rw [h]
  · rw [h]
  · rw [h]; rfl
  · rw [h]

@[simp] theorem receiveBytes_nil (s : State) : receiveBytes [] s = s := rfl

@[simp] theorem receiveBytes_cons (b : Byte) (bs : List Byte) (s : State) :
    receiveBytes (b :: bs) s = receiveBytes bs (receiveByte b s) := rfl

theorem receiveBytes_append (bs cs : List Byte) (s : State) :
    receiveBytes (bs ++ cs) s = receiveBytes cs (receiveBytes bs s) := by
  simp [receiveBytes]

/-- Any number of bytes writes nothing but the receiver's own state. -/
theorem receiveBytes_frame (bs : List Byte) (s : State) :
    receiveBytes bs s = { s with
      frameSignal := (receiveBytes bs s).frameSignal, rxIrqEn := (receiveBytes bs s).rxIrqEn,
      frameBuf := (receiveBytes bs s).frameBuf, byteCnt := (receiveBytes bs s).byteCnt } := by
  induction bs generalizing s with
  | nil => rfl
  | cons b bs ih =>
    rw [receiveBytes_cons, ih, receiveByte_frame b s]

/-- Bytes that arrive while the block neither listens nor collects leave no trace (R70). -/
theorem receiveBytes_discarded (bs : List Byte) (s : State) (hi : s.rxIrqEn = false) (hc : ¬ Collecting s) :
    receiveBytes bs s = s := by
  have step (b : Byte) : receiveByte b s = s := by
    rcases receiveByte_cases b s with ⟨h, _⟩ | ⟨h, _⟩ | ⟨_, h, _⟩ | ⟨_, _, h⟩
    · simp [hi] at h
    · simp [hi] at h
    · exact absurd h hc
    · exact h
  induction bs with
  | nil => rfl
  | cons b bs ih => rw [receiveBytes_cons, step, ih]

/-- Bytes stored one after another from index `k` on. -/
def storeFrom (m : Memory) (k : Nat) : List Byte → Memory
  | [] => m
  | b :: bs => storeFrom (memStore m k b) (k + 1) bs

/-- Bytes that fit are collected one after another (R69). -/
theorem receiveBytes_collected (bs : List Byte) (s : State) (hi : s.rxIrqEn = false)
    (hf : s.frameSignal = .framePending) (hn : s.byteCnt.toNat + bs.length ≤ reqLen) :
    receiveBytes bs s = { s with
      frameBuf := storeFrom s.frameBuf s.byteCnt.toNat bs,
      byteCnt := BitVec.ofNat 4 (s.byteCnt.toNat + bs.length) } := by
  induction bs generalizing s with
  | nil => simp [storeFrom]
  | cons b bs ih =>
    simp only [List.length_cons, reqLen] at hn
    have hstep : receiveByte b s = collectByte b s := by
      unfold receiveByte
      rw [if_neg (by simp [hi]), if_pos ⟨hf, by simp only [reqLen]; omega⟩]
    have hcnt : (s.byteCnt + 1#4).toNat = s.byteCnt.toNat + 1 := by
      rw [BitVec.toNat_add]; simp; omega
    rw [receiveBytes_cons, hstep, ih (collectByte b s) (by simp [hi]) (by simp [hf])
      (by simp only [collectByte_byteCnt, hcnt, reqLen]; omega)]
    simp [collectByte, hcnt, storeFrom, Nat.add_assoc, Nat.add_comm 1]

theorem memLookup_storeFrom (m : Memory) (k : Nat) (bs : List Byte) (i : Nat) :
    memLookup (storeFrom m k bs) i =
      if k ≤ i then (bs[i - k]?).or (memLookup m i) else memLookup m i := by
  induction bs generalizing m k with
  | nil => simp [storeFrom]
  | cons b bs ih =>
    rw [storeFrom, ih, memLookup_memStore]
    by_cases h1 : k + 1 ≤ i
    · have : i - k = (i - (k + 1)) + 1 := by omega
      simp [h1, show k ≤ i by omega, this, show i ≠ k by omega]
    · by_cases h2 : i = k
      · subst h2; simp
      · simp [h1, h2, show ¬ k ≤ i by omega]

/-- A request frame for this slave received by a listening block stands complete in the buffer (R68, R69). -/
theorem receiveBytes_request (f : Frame) (s : State) (hi : s.rxIrqEn = true) (ha : f.address = s.cfg.slaveAddr) :
    ∃ m, receiveBytes (frameBytes f) s =
        { s with rxIrqEn := false, frameSignal := .framePending, byteCnt := 8#4, frameBuf := m } ∧
      readFrame m = .ok f := by
  have hfirst : receiveByte f.address s =
      { s with rxIrqEn := false, frameBuf := memStore s.frameBuf 0 f.address, byteCnt := 1#4,
               frameSignal := .framePending } := by
    simp [receiveByte, filterByte, hi, ha]
  refine ⟨storeFrom (memStore s.frameBuf 0 f.address) 1
    [f.function, f.startHi, f.startLo, f.qtyHi, f.qtyLo, f.crcLo, f.crcHi], ?_, ?_⟩
  · show receiveBytes (f.address :: [f.function, f.startHi, f.startLo, f.qtyHi, f.qtyLo, f.crcLo, f.crcHi]) s = _
    rw [receiveBytes_cons, hfirst, receiveBytes_collected _ _ rfl rfl (by simp [reqLen])]
    simp
  · rw [readFrame_ok_iff]
    simp [memLookup_storeFrom]

end Sys2Proof.Machine
end

