-- ==== Sys2Proof/Laws/RxBytes.lean ====
section
/-! SUPPORT. Bytes received one by one are `receiveBytes`, and the receiver's own state is all they touch. -/

namespace Sys2Proof.Machine

/-- The `RX_BYTE` events for some bytes have exactly one end state. -/
theorem rxBytes_iff (bs : List Byte) (s t : State) : RxBytes bs s t ↔ receiveBytes bs s = t := by
  induction bs generalizing s with
  | nil => exact ⟨fun h => by cases h; rfl, fun h => h ▸ .nil s⟩
  | cons b bs ih =>
    constructor
    · rintro (_ | ⟨hb, hbs⟩)
      cases hb
      exact (ih _).1 hbs
    · intro h
      exact .cons rfl ((ih _).2 h)

theorem rxBytes_receiveBytes (bs : List Byte) (s : State) : RxBytes bs s (receiveBytes bs s) :=
  (rxBytes_iff bs s _).2 rfl

end Sys2Proof.Machine
end

