-- ==== Sys2Proof/Laws/Service.lean ====
section
/-! SUPPORT. The service: everything `SERVICE` and the handlers can do, said once. -/

namespace Sys2Proof.Machine

/-- Everything the service of a frame can do (R84, R85, R86). -/
theorem serveVerdict_cases (f : Frame) (s : State) :
    (crcCheck f = false ∧ serveVerdict f s = rearmReceiver (raiseCondition .crcMismatch s)) ∨
    (crcCheck f = true ∧ unsupportedFields f = true ∧ serveVerdict f s =
      recoverReceiver (raiseCondition (.unsupportedRequest (quantityOf f) f.function) s)) ∨
    (crcCheck f = true ∧ unsupportedFields f = false ∧ serveVerdict f s =
      rearmReceiver (raiseCondition (.responded (quantityOf f)) (transmitBytes (responseTo f (quantityOf f) s) s))) := by
  unfold serveVerdict
  rcases verdictOf_cases f with ⟨h, hv⟩ | ⟨h, h', hv⟩ | ⟨h, h', hv⟩ <;> simp [*]

/-- Everything `SERVICE` can do where it is taken (R114). -/
theorem serviceBody_cases (s : State) :
    (s.frameSignal = .idle ∧ serviceBody s = .next { s with seq := .sample }) ∨
    (s.frameSignal = .addressMismatch ∧ serviceBody s =
      .next { recoverReceiver (raiseCondition .addressMismatch s) with seq := .sample }) ∨
    (s.frameSignal = .framePending ∧ ∃ f, readFrame s.frameBuf = .ok f ∧
      serviceBody s = .next { serveVerdict f s with seq := .sample }) ∨
    (s.frameSignal = .framePending ∧ readFrame s.frameBuf = .error .frameByteUnwritten ∧
      serviceBody s = .fault .frameByteUnwritten) := by
  unfold serviceBody
  cases hs : s.frameSignal
  · exact .inl ⟨rfl, rfl⟩
  · cases hf : readFrame s.frameBuf with
    | ok f => exact .inr (.inr (.inl ⟨rfl, f, rfl, rfl⟩))
    | error e =>
      obtain rfl := readFrame_error _ _ hf
      exact .inr (.inr (.inr ⟨rfl, rfl, rfl⟩))
  · exact .inr (.inl ⟨rfl, rfl⟩)

/-- What `SERVICE` writes where it completes: never the sample registers, the protection outputs or the buffer
(R114, "State written"). -/
theorem serviceBody_frame {s t : State} (h : serviceBody s = .next t) :
    t = { s with frameSignal := t.frameSignal, rxIrqEn := t.rxIrqEn, byteCnt := t.byteCnt, txEn := t.txEn,
                 seq := .sample, txLog := t.txLog, svcLog := t.svcLog } := by
  rcases serviceBody_cases s with ⟨_, he⟩ | ⟨_, he⟩ | ⟨_, f, _, he⟩ | ⟨_, _, he⟩ <;> rw [he] at h <;> cases h
  · rfl
  · rfl
  · rcases serveVerdict_cases f s with ⟨_, hv⟩ | ⟨_, _, hv⟩ | ⟨_, _, hv⟩ <;> rw [hv] <;> rfl

/-- A service held back leaves the state alone; one taken is `serviceBody`. -/
theorem serviceIfEnabled_cases (s : State) :
    (ServiceEnabled s ∧ serviceIfEnabled s = serviceBody s) ∨ (¬ ServiceEnabled s ∧ serviceIfEnabled s = .next s) := by
  unfold serviceIfEnabled
  by_cases h : ServiceEnabled s
  · exact .inl ⟨h, if_pos h⟩
  · exact .inr ⟨h, if_neg h⟩

/-- The service of a complete frame for which MAIN's turn has come. -/
theorem serviceIfEnabled_complete {s : State} {f : Frame} (hseq : s.seq = .service)
    (hf : s.frameSignal = .framePending) (hn : s.byteCnt = 8#4) (hr : readFrame s.frameBuf = .ok f) :
    serviceIfEnabled s = .next { serveVerdict f s with seq := .sample } := by
  have he : ServiceEnabled s := ⟨hseq, by simp [PartialFrame, hn, reqLen]⟩
  rw [serviceIfEnabled, if_pos he, serviceBody, hf]
  simp [hr]

/-- What a service that is taken or held can write, and that the histories only grow. -/
theorem serviceIfEnabled_frame {s t : State} (h : serviceIfEnabled s = .next t) :
    t = { s with frameSignal := t.frameSignal, rxIrqEn := t.rxIrqEn, byteCnt := t.byteCnt, txEn := t.txEn,
                 seq := t.seq, txLog := t.txLog, svcLog := t.svcLog } ∧
    (t.txEn = s.txEn ∨ t.txEn = false) ∧ s.txLog <+: t.txLog ∧ s.svcLog <+: t.svcLog := by
  rcases serviceIfEnabled_cases s with ⟨he, h2⟩ | ⟨_, h2⟩ <;> rw [h2] at h
  · refine ⟨?_, ?_⟩
    · conv_lhs => rw [serviceBody_frame h]
      conv_rhs => rw [serviceBody_frame h]
    · rcases serviceBody_cases s with ⟨_, h'⟩ | ⟨_, h'⟩ | ⟨_, f, _, h'⟩ | ⟨_, _, h'⟩ <;> rw [h'] at h <;> cases h
      · exact ⟨.inl rfl, List.prefix_rfl, List.prefix_rfl⟩
      · exact ⟨.inl rfl, List.prefix_append _ _, List.prefix_append _ _⟩
      · rcases serveVerdict_cases f s with ⟨_, hv⟩ | ⟨_, _, hv⟩ | ⟨_, _, hv⟩ <;> rw [hv]
        · exact ⟨.inl rfl, List.prefix_rfl, List.prefix_append _ _⟩
        · exact ⟨.inl rfl, List.prefix_append _ _, List.prefix_append _ _⟩
        · exact ⟨.inr rfl, List.prefix_append _ _, List.prefix_append _ _⟩
  · cases h
    exact ⟨rfl, .inl rfl, List.prefix_rfl, List.prefix_rfl⟩

/-- What a whole transaction leaves alone. -/
theorem transact_frame {bs : List Byte} {s t : State} (h : transact bs s = .next t) :
    t.cfg = s.cfg ∧ t.stim = s.stim ∧ t.x = s.x ∧ t.faultEn = s.faultEn ∧ t.normalEn = s.normalEn ∧
    t.result = s.result ∧ t.frameBuf = (receiveBytes bs s).frameBuf ∧
    (t.txEn = s.txEn ∨ t.txEn = false) ∧ s.txLog <+: t.txLog ∧ s.svcLog <+: t.svcLog := by
  obtain ⟨h1, h2⟩ := serviceIfEnabled_frame h
  have hb : t.frameBuf = (receiveBytes bs s).frameBuf := by rw [h1]
  rw [receiveBytes_frame bs s] at h1 h2
  exact ⟨by rw [h1], by rw [h1], by rw [h1], by rw [h1], by rw [h1], by rw [h1], hb, h2⟩

end Sys2Proof.Machine
end

