-- ==== Sys2Proof/Laws/Step.lean ====
section
/-! SUPPORT. The step: everything it can do, said once (R122). -/

namespace Sys2Proof.Machine

theorem step_cases (s : State) :
    (s.stim = [] ∧ step s = mainTurn s) ∨
    (∃ st more i left, s.stim = st :: more ∧ decode s.cfg.slaveAddr st = .ok (i, left) ∧ Enabled s i = true ∧
      step s = exec i { s with stim := left ++ more }) ∨
    (∃ st more i left, s.stim = st :: more ∧ decode s.cfg.slaveAddr st = .ok (i, left) ∧ Enabled s i = false ∧
      step s = .next { s with stim := left ++ more }) ∨
    (∃ st more r, s.stim = st :: more ∧ decode s.cfg.slaveAddr st = .error r ∧ step s = .refused (refusalOf r)) := by
  unfold step fetchAndRun
  cases hs : s.stim with
  | nil => exact .inl ⟨rfl, rfl⟩
  | cons st more =>
    cases hd : decode s.cfg.slaveAddr st with
    | error r => exact .inr (.inr (.inr ⟨st, more, r, rfl, hd, by simp [hd]⟩))
    | ok p =>
      obtain ⟨i, left⟩ := p
      have hen : Enabled { s with stim := left ++ more } i = Enabled s i := by cases i <;> rfl
      cases he : Enabled s i with
      | true => exact .inr (.inl ⟨st, more, i, left, rfl, hd, he, by simp [hd, present, hen, he]⟩)
      | false => exact .inr (.inr (.inl ⟨st, more, i, left, rfl, hd, he, by simp [hd, present, hen, he]⟩))

/-- A run begins with its first step. -/
theorem core_run_next {s u : State} (k : Nat) (h : step s = .next u) :
    Host.Core.run core (k + 1) s = Host.Core.run core k u := by
  have h' : core.step s = .next u := h
  simp only [Host.Core.run, h']

end Sys2Proof.Machine
end

