-- ==== Sys2Proof/Tests/Slice0.lean ====
section
/-! SUPPORT. The model's own tests: well-formedness, decoding of words written out from 30_encoding.md, one step of each
operation against the vectors of 95_test_vectors.md (named V1 to V8, S1 to S8, P1 to P7 as there), and states that meet
the hypotheses of the statements. -/

namespace Sys2Proof.Tests

open Sys2Proof.Machine

-- The kernel evaluates these tests one after another: in parallel they want more threads than the memory limit allows.
set_option Elab.async false

/-! ### Helpers -/

/-- The state an outcome leads to. -/
def after : Host.Outcome State Fault Refusal → Option State
  | .next s => some s
  | .fault _ => none
  | .refused _ => none

/-- The fault an outcome stops with. -/
def faultOf : Host.Outcome State Fault Refusal → Option Fault
  | .next _ => none
  | .fault r => some r
  | .refused _ => none

/-- The refusal an outcome stops with. -/
def refusedWith : Host.Outcome State Fault Refusal → Option Refusal
  | .next _ => none
  | .fault _ => none
  | .refused r => some r

def bytes (l : List Nat) : List Byte := l.map (BitVec.ofNat 8)

/-- The line entries of one transmission. -/
def sent (l : List Nat) : List TxEvent := [.de true] ++ (bytes l).map TxEvent.tx ++ [.de false]

def samples (a b c d i t u : Int) : SampleSet :=
  ⟨BitVec.ofInt 16 a, BitVec.ofInt 16 b, BitVec.ofInt 16 c, BitVec.ofInt 16 d, BitVec.ofInt 16 i, BitVec.ofInt 16 t,
   BitVec.ofInt 16 u⟩

/-- The sample set of S8. -/
def samplesS8 : SampleSet := samples 3400 3410 3395 3405 2000 25 26

/-- After P1's `SAMPLE`: listening, `SERVICE` is MAIN's next step. -/
def loaded : State := { State.reset with x := samplesS8, seq := .service, faultEn := false, normalEn := true }

/-- The same at the start of a cycle. -/
def fresh : State := { loaded with seq := .sample }

def bufferOf (l : List Nat) : Memory := (bytes l).zipIdx.map fun p => (p.2, p.1)

/-- A frame for this slave of which these bytes have arrived. -/
def pending (l : List Nat) (s : State) : State :=
  { s with frameSignal := .framePending, rxIrqEn := false, byteCnt := BitVec.ofNat 4 l.length, frameBuf := bufferOf l }

/-- A frame for another slave has begun. -/
def mismatched (s : State) : State := { s with frameSignal := .addressMismatch, rxIrqEn := false }

def frameOf (a f sh sl qh ql lo hi : Nat) : Frame :=
  ⟨BitVec.ofNat 8 a, BitVec.ofNat 8 f, BitVec.ofNat 8 sh, BitVec.ofNat 8 sl, BitVec.ofNat 8 qh, BitVec.ofNat 8 ql,
   BitVec.ofNat 8 lo, BitVec.ofNat 8 hi⟩

/-- The request of S8, its CRC sent as `B1 C8`. -/
def readAll : List Nat := [0x01, 0x04, 0, 0, 0, 7, 0xB1, 0xC8]

def waiting : State := pending readAll loaded

/-! ### Well-formedness: each check refuses an ill-formed term -/

theorem test_wf_rir : Instr.wf 1 (.rir 1 0 7 0xB1 0xC8) = true := by decide +kernel
theorem test_wf_rir_address : Instr.wf 1 (.rir 2 0 7 0xB1 0xFB) = false := by decide +kernel
theorem test_wf_rir_crc : Instr.wf 1 (.rir 1 0 7 0xB1 0xC9) = false := by decide +kernel
theorem test_wf_rir_quantity : Instr.wf 1 (.rir 1 0 8 0xF1 0xCC) = false := by decide +kernel
theorem test_wf_badCrc_address : Instr.wf 1 (.badCrc 2 4 0 7 0 0) = false := by decide +kernel
theorem test_wf_badCrc_crc_right : Instr.wf 1 (.badCrc 1 4 0 7 0xB1 0xC8) = false := by decide +kernel
theorem test_wf_unsupported_address : Instr.wf 1 (.unsupported 2 3 0 7 4 8) = false := by decide +kernel
theorem test_wf_unsupported_crc : Instr.wf 1 (.unsupported 1 3 0 7 4 9) = false := by decide +kernel
theorem test_wf_unsupported_but_supported : Instr.wf 1 (.unsupported 1 4 0 7 0xB1 0xC8) = false := by decide +kernel
theorem test_wf_foreign_address : Instr.wf 1 (.foreign 1 []) = false := by decide
theorem test_wf_incomplete_address : Instr.wf 1 (.incomplete 2 []) = false := by decide
theorem test_wf_incomplete_complete : Instr.wf 1 (.incomplete 1 [4, 0, 0, 0, 7, 0, 0]) = false := by decide
theorem test_wf_rsp_eight_registers : Instr.wf 1 (.rsp 1 [0, 0, 0, 0, 0, 0, 0, 0]) = false := by decide
theorem test_wf_transmit_empty : Instr.wf 1 (.transmit []) = false := by decide

/-! ### Decoding of words written out from R47, R52, R60, R62 -/

/-- P1: `01 04 00 00 00 07 B1 C8`. -/
theorem test_decode_rir : decodeTableWord 64 0x010400000007B1C8 = some (.rir 1 0 7 0xB1 0xC8) := by decide +kernel

/-- V3: start address 5 and quantity 2, both high byte first. -/
theorem test_decode_rir_fields : decodeTableWord 64 0x01040005000261CA = some (.rir 1 5 2 0x61 0xCA) := by
  decide +kernel

/-- P3: high CRC byte wrong. -/
theorem test_decode_badCrc : decodeTableWord 64 0x010400000007B1C9 = some (.badCrc 1 4 0 7 0xB1 0xC9) := by
  decide +kernel

/-- V3: both defects, the CRC wins. -/
theorem test_decode_badCrc_first : decodeTableWord 64 0x0103000000090000 = some (.badCrc 1 3 0 9 0 0) := by
  decide +kernel

/-- P4: function 0x03. -/
theorem test_decode_unsupported : decodeTableWord 64 0x0103000000070408 = some (.unsupported 1 3 0 7 4 8) := by
  decide +kernel

/-- V3: quantity 256, its low byte 0. -/
theorem test_decode_unsupported_quantity :
    decodeTableWord 64 0x010400000100F19A = some (.unsupported 1 4 0 256 0xF1 0x9A) := by decide +kernel

/-- P2: a frame for slave 2 is foreign from its first byte on. -/
theorem test_decode_foreign :
    decodeTableWord 64 0x020400000007B1FB = some (.foreign 2 (bytes [4, 0, 0, 0, 7, 0xB1, 0xFB])) := by decide +kernel

/-- P5: the first three bytes of a request. -/
theorem test_decode_incomplete :
    decode 1 (.line 1 (bytes [4, 0])) = .ok (.incomplete 1 (bytes [4, 0]), []) := by rfl

/-- A ninth byte is presented after the frame (R54: counting to 8). -/
theorem test_decode_ninth_byte :
    decode 1 (.line 1 (bytes [4, 0, 0, 0, 7, 0xB1, 0xC8, 0x55])) =
      .ok (.rir 1 0 7 0xB1 0xC8, [.line 0x55 []]) := by decide +kernel

/-- S8: the response bytes decode back to the sample set. -/
theorem test_decode_rsp :
    decodeRsp (bytes [0x01, 0x04, 0x0E, 0x0D, 0x48, 0x0D, 0x52, 0x0D, 0x43, 0x0D, 0x4D, 0x07, 0xD0, 0x00, 0x19, 0x00,
      0x1A, 0xDF, 0x35]) = some (.rsp 1 [3400, 3410, 3395, 3405, 2000, 25, 26]) := by decide +kernel

/-- R52: an odd byte count is no response. -/
theorem test_decode_rsp_odd_count : decodeTableWord 24 0x010403 = none := by decide
theorem test_decode_rsp_head : decodeTableWord 24 0x010404 = some (.rsp 1 [0, 0]) := by decide

/-- V8. -/
theorem test_decode_reset : decode 1 (.edge 0b111 9 samplesS8) = .ok (.reset, []) := by rfl
theorem test_decode_rxByte : decode 1 (.edge 0b010 0xC8 samplesS8) = .ok (.rxByte 0xC8, []) := by rfl
theorem test_decode_sampleLoad : decode 1 (.edge 0b001 9 samplesS8) = .ok (.sampleLoad samplesS8, []) := by rfl
theorem test_decode_service : decode 1 (.edge 0b000 9 samplesS8) = .ok (.service, []) := by rfl
theorem test_decode_two_strobes : decode 1 (.edge 0b011 9 samplesS8) = .error .simultaneousStrobes := by rfl
theorem test_decode_cycle : decode 1 (.cycle samplesS8) = .ok (.cycle samplesS8, []) := by rfl
theorem test_decode_req : decode 1 (.req 1 4 0 7) = .ok (.req 1 4 0 7, []) := by rfl

/-! ### The words of the table run as the next step after reset -/

theorem test_word_rsp :
    (after (step (State.reset.withFetchWord 24 0x000400))).map (fun t => (t.txLog.length, t.svcLog)) =
      some (7, [.responded 0]) := by decide +kernel
theorem test_word_reset :
    (after (step (State.reset.withFetchWord 8 4))).map (fun t => (t.seq, t.faultEn, t.stim)) =
      some (.sample, true, []) := by decide +kernel
/-- V2: byte 00 does not match address 01. -/
theorem test_word_rxByte :
    (after (step (State.reset.withFetchWord 8 2))).map (fun t => (t.frameSignal, t.rxIrqEn)) =
      some (.addressMismatch, false) := by decide +kernel
/-- V5: all samples zero is no fault. -/
theorem test_word_sampleLoad :
    (after (step (State.reset.withFetchWord 8 1))).map (fun t => (t.seq, t.faultEn)) =
      some (.service, false) := by decide +kernel
theorem test_word_service :
    (after (step (State.reset.withFetchWord 8 0))).map (fun t => (t.seq, t.txLog, t.svcLog)) =
      some (.sample, [], []) := by decide +kernel
/-- After a sample load the request of S8 is answered by its step. -/
theorem test_word_rir :
    (after (step (loaded.withFetchWord 64 0x010400000007B1C8))).map (fun t => (t.seq, t.svcLog)) =
      some (.sample, [.responded 7]) := by decide +kernel

/-! ### One step of each operation -/

/-- P1, S8. -/
theorem test_rir_response :
    (after (exec (.rir 1 0 7 0xB1 0xC8) loaded)).map (·.txLog) =
      some (sent [0x01, 0x04, 0x0E, 0x0D, 0x48, 0x0D, 0x52, 0x0D, 0x43, 0x0D, 0x4D, 0x07, 0xD0, 0x00, 0x19, 0x00, 0x1A,
        0xDF, 0x35]) := by decide +kernel
/-- P6: registers 0 and 1 whatever the start address; `SERVICE` is not MAIN's step at the start of a cycle. -/
theorem test_rir_start_address :
    ((after (exec (.rir 1 5 2 0x61 0xCA) { loaded with x := samples 3300 3300 3300 3300 (-1500) (-999) 25 })).map (·.txLog),
      (after (exec (.rir 1 5 2 0x61 0xCA) fresh)).map (·.txLog)) =
      (some (sent [0x01, 0x04, 0x04, 0x0C, 0xE4, 0x0C, 0xE4, 0xBD, 0xA8]), some []) := by decide +kernel
/-- P3. -/
theorem test_badCrc :
    (after (exec (.badCrc 1 4 0 7 0xB1 0xC9) loaded)).map (fun t => (t.txLog, t.svcLog, t.rxIrqEn)) =
      some ([], [.crcMismatch], true) := by decide +kernel
/-- P4. -/
theorem test_unsupported :
    (after (exec (.unsupported 1 4 0 8 0xF1 0xCC) loaded)).map (fun t => (t.txLog, t.svcLog)) =
      some ([.rxReset], [.unsupportedRequest 8 4]) := by decide +kernel
/-- P2. -/
theorem test_foreign :
    (after (exec (.foreign 2 (bytes [4, 0, 0, 0, 7, 0xB1, 0xFB])) loaded)).map (fun t => (t.txLog, t.svcLog, t.frameBuf)) =
      some ([.rxReset], [.addressMismatch], []) := by decide +kernel
/-- P5. -/
theorem test_incomplete :
    (after (exec (.incomplete 1 (bytes [4, 0])) loaded)).map (fun t => (t.seq, t.frameSignal, t.byteCnt)) =
      some (.service, .framePending, 3) := by decide +kernel
/-- V4, two registers. -/
theorem test_rsp :
    (after (exec (.rsp 1 [3300, 3300]) fresh)).map (·.txLog) =
      some (sent [0x01, 0x04, 0x04, 0x0C, 0xE4, 0x0C, 0xE4, 0xBD, 0xA8]) := by decide +kernel
/-- V7: a reset in the middle of a held service. -/
theorem test_reset_control :
    (after (exec .reset (pending [1, 4, 0, 0, 0] loaded))).map (fun t => (t.frameSignal, t.rxIrqEn, t.byteCnt, t.seq)) =
      some (.idle, true, 0, .sample) := by decide +kernel
theorem test_reset_outputs :
    (after (exec .reset { loaded with txLog := [.rxReset] })).map (fun t => (t.faultEn, t.normalEn, t.txLog)) =
      some (true, false, []) := by decide +kernel
/-- V2: the address value is collected as data. -/
theorem test_rxByte_collects_address_value :
    (after (exec (.rxByte 1) (pending [1] loaded))).map (fun t => (t.byteCnt, t.frameBuf)) =
      some (2, bufferOf [1, 1]) := by decide +kernel
/-- V2: the ninth byte, and any byte after a mismatch, is discarded. -/
theorem test_rxByte_discards :
    (after (exec (.rxByte 0x55) waiting), after (exec (.rxByte 1) (mismatched loaded))) =
      (some waiting, some (mismatched loaded)) := by decide +kernel
/-- V5: every input exactly at its threshold. -/
theorem test_sampleLoad_at_thresholds :
    (after (exec (.sampleLoad (samples 3650 3650 3650 3650 10000 (-20) 40)) State.reset)).map
      (fun t => (t.faultEn, t.normalEn, t.seq)) = some (false, true, .service) := by decide +kernel
/-- V5, V6: the sentinel is below -20; not enabled at SEQ_SERVICE. -/
theorem test_sampleLoad_sentinel_and_hold :
    ((after (exec (.sampleLoad (samples 3400 3400 3400 3400 0 (-999) 25)) fresh)).map (·.faultEn),
      faultOf (exec (.sampleLoad samplesS8) loaded)) = (some true, some .sampleLoadHeld) := by decide +kernel
/-- V6. -/
theorem test_service_unsupported :
    (after (exec .service (pending [1, 3, 0, 0, 0, 7, 4, 8] loaded))).map (fun t => (t.txLog, t.svcLog)) =
      some ([.rxReset], [.unsupportedRequest 7 3]) := by decide +kernel
/-- V6: the holds. -/
theorem test_service_holds :
    (faultOf (exec .service (pending [1, 4, 0, 0, 0] loaded)), faultOf (exec .service fresh)) =
      (some .serviceHeldPartialFrame, some .awaitingSampleSet) := by decide +kernel
/-- P5, first line. -/
theorem test_cycle :
    (after (exec (.cycle (samples 3400 3400 3400 3400 0 25 25)) State.reset)).map (fun t => (t.seq, t.normalEn, t.svcLog)) =
      some (.sample, true, []) := by decide +kernel
/-- P7: the `SAMPLE` half is taken and the `SERVICE` half held. -/
theorem test_cycle_held :
    (after (exec (.cycle samplesS8) (pending [1, 0, 1, 0x60, 0x39] fresh))).map (fun t => (t.seq, t.byteCnt)) =
      some (.service, 5) := by decide +kernel
/-- P1: the CRC bytes `B1 C8` are computed. -/
theorem test_req :
    (after (exec (.req 1 4 0 7) loaded)).map (fun t => (t.frameBuf, t.byteCnt)) = some (bufferOf readAll, 8) := by
  decide +kernel
/-- V2. -/
theorem test_addrFilter_match :
    (after (exec (.addrFilter 1) loaded)).map (fun t => (t.frameSignal, t.byteCnt, t.frameBuf)) =
      some (.framePending, 1, bufferOf [1]) := by decide +kernel
theorem test_addrFilter_no_broadcast :
    (after (exec (.addrFilter 0) loaded)).map (fun t => (t.frameSignal, t.byteCnt, t.frameBuf)) =
      some (.addressMismatch, 0, []) := by decide +kernel
/-- V2: the eighth byte. -/
theorem test_collect_eighth :
    (after (exec (.collect 0xC8) (pending (readAll.take 7) loaded))).map (fun t => (t.frameBuf, t.byteCnt)) =
      some (bufferOf readAll, 8) := by decide +kernel
theorem test_collect_ninth : faultOf (exec (.collect 0) waiting) = some .frameIndexOutOfRange := by decide +kernel
/-- R74. -/
theorem test_crc16Init : (after (exec .crc16Init fresh)).map (·.result) = some (.crc 0xFFFF) := by decide
/-- V1: the bit-level trace, and the byte table at 0xFF. -/
theorem test_crc16Update : (after (exec (.crc16Update 0xFFFF 1) fresh)).map (·.result) = some (.crc 0x807E) := by
  decide +kernel
theorem test_crc16Update_table : crcUpdate 0 0xFF = 0x4040 := by decide +kernel
/-- V1: S1's vector and the customary check value. -/
theorem test_crc16 :
    (after (exec (.crc16 (bytes [1, 4, 0, 0, 0, 7])) fresh)).map (·.result) = some (.crc 0xC8B1) := by decide +kernel
theorem test_crc16_check_value : crcOf (bytes [0x31, 0x32, 0x33, 0x34, 0x35, 0x36, 0x37, 0x38, 0x39]) = 0x4B37 := by
  decide +kernel
/-- V1: right, and with the CRC bytes swapped. -/
theorem test_crcCheck :
    (after (exec (.crcCheck (frameOf 1 4 0 0 0 7 0xB1 0xC8)) fresh)).map (·.result) = some (.bool true) := by
  decide +kernel
theorem test_crcCheck_swapped :
    (after (exec (.crcCheck (frameOf 1 4 0 0 0 7 0xC8 0xB1)) fresh)).map (·.result) = some (.bool false) := by
  decide +kernel
/-- V3: quantity 0 is accepted; 65535 is not read as -1. -/
theorem test_validate_zero :
    (after (exec (.validate (frameOf 1 4 0 0 0 0 0xF0 0x0A)) fresh)).map (·.result) = some (.verdict (.accept 0)) := by
  decide +kernel
theorem test_validate_unsigned :
    (after (exec (.validate (frameOf 1 4 0 0 0xFF 0xFF 0xF1 0xBA)) fresh)).map (·.result) =
      some (.verdict (.unsupportedRequest 65535 4)) := by decide +kernel
/-- V4: negative values, and no registers. -/
theorem test_respBuild_signed :
    (after (exec (.respBuild 1 7 (samples (-1) 0 (-32768) 32767 (-1) (-21) 0)) fresh)).map (·.result) =
      some (.bytes (bytes [0x01, 0x04, 0x0E, 0xFF, 0xFF, 0x00, 0x00, 0x80, 0x00, 0x7F, 0xFF, 0xFF, 0xFF, 0xFF, 0xEB, 0x00,
        0x00, 0x09, 0x9E])) := by decide +kernel
theorem test_respBuild_empty :
    (after (exec (.respBuild 1 0 samplesS8) fresh)).map (·.result) =
      some (.bytes (bytes [0x01, 0x04, 0x00, 0x22, 0xC0])) := by decide +kernel
/-- V4, last line: L + 2 entries. -/
theorem test_transmit :
    (after (exec (.transmit (bytes [1, 2])) fresh)).map (fun t => (t.txLog, t.txEn)) =
      some ([.de true, .tx 1, .tx 2, .de false], false) := by decide
/-- V5: 0x8000 is not above 3650; temperature 41 is above 40. -/
theorem test_protect_signed :
    (after (exec (.protect (samples (-32768) 3400 3400 3400 0 25 25)) fresh)).map (·.result) = some (.bool false) := by
  decide +kernel
theorem test_protect_temp1_high :
    (after (exec (.protect (samples 3400 3400 3400 3400 0 25 41)) fresh)).map (·.result) = some (.bool true) := by
  decide +kernel
/-- R101. -/
theorem test_driveOutputs :
    (after (exec (.driveOutputs true) fresh)).map (fun t => (t.faultEn, t.normalEn)) = some (true, false) := by decide
/-- R109, R110: they differ in the log entry alone. -/
theorem test_recover :
    (after (exec .recover (mismatched loaded))).map (fun t => (t.frameSignal, t.rxIrqEn, t.txLog)) =
      some (.idle, true, [.rxReset]) := by decide
theorem test_rearm :
    (after (exec .rearm waiting)).map (fun t => (t.frameSignal, t.rxIrqEn, t.byteCnt, t.txLog)) =
      some (.idle, true, 0, []) := by decide +kernel

/-! ### The step: holds and refusals -/

/-- V8, second line from the end: outside the contract. -/
theorem test_step_two_strobes :
    refusedWith (step { fresh with stim := [.edge 0b011 0 samplesS8] }) = some .simultaneousStrobes := by decide +kernel
/-- V8: `smp_ready = 0`, the sample set is not taken. -/
theorem test_step_sample_not_taken :
    after (step { loaded with stim := [.edge 0b001 0 SampleSet.zero] }) = some loaded := by decide +kernel
/-- R60: `SERVICE` has no strobe. -/
theorem test_step_own_service : (after (step loaded)).map (·.seq) = some .sample := by decide +kernel
/-- R116, R117: MAIN has no step. -/
theorem test_step_starved :
    (faultOf (step fresh), faultOf (step (pending [1] loaded))) =
      (some .awaitingSampleSet, some .serviceHeldPartialFrame) := by decide +kernel

/-! ### States that meet the hypotheses of the statements -/

theorem test_loaded_inv : BlockInv loaded := by constructor <;> decide +kernel
theorem test_fresh_inv : BlockInv fresh := by constructor <;> decide +kernel
theorem test_waiting_inv : BlockInv waiting := by constructor <;> decide +kernel
theorem test_waiting_fresh_inv : BlockInv (pending readAll fresh) := by constructor <;> decide +kernel
theorem test_partial_inv : BlockInv (pending [1, 4, 0] loaded) := by constructor <;> decide +kernel
theorem test_mismatched_inv : BlockInv (mismatched loaded) := by constructor <;> decide +kernel

theorem test_witness_ResetGivesEveryElementItsResetValue :
    (0b100#3).getLsbD 2 = true ∧ (0b111#3).getLsbD 2 = true := by decide
theorem test_witness_StrobesSelectTheOperation :
    (0b100#3 &&& 0b100#3 = 0b100#3 ∧ 0b111#3 &&& 0b100#3 = 0b100#3) ∧
    (0b000#3 &&& 0b100#3 ≠ 0b100#3 ∧ 0b001#3 &&& 0b100#3 ≠ 0b100#3 ∧ 0b010#3 &&& 0b100#3 ≠ 0b100#3 ∧
      0b011#3 &&& 0b100#3 ≠ 0b100#3) := by decide
/-- FOREIGN; INCOMPLETE at six further bytes; a complete frame at seven, and with a byte behind it. -/
theorem test_witness_RequestSpaceIsClassified :
    ((2#8 : Byte) ≠ 1#8) ∧ (bytes [4, 0, 0, 0, 7, 0xB1]).length < 7 ∧ ¬ (bytes [4, 0, 0, 0, 7, 0xB1, 0xC8]).length < 7 ∧
    bytes [4, 0, 0, 0, 7, 0xB1, 0xC8, 0x55] = 4#8 :: 0#8 :: 0#8 :: 0#8 :: 7#8 :: 0xB1#8 :: 0xC8#8 :: [0x55#8] := by decide
theorem test_witness_DecodedOperationsAreWellFormed :
    decode 1#8 (.line 1#8 (bytes [4, 0, 0, 0, 7, 0xB1, 0xC8])) = .ok (.rir 1#8 0#16 7#16 0xB1#8 0xC8#8, []) :=
  by decide +kernel
theorem test_witness_DecodeOfEncodeGivesTheOperationBack :
    Instr.wf 1 (.rir 1 0 7 0xB1 0xC8) = true ∧
      encode (.rir 1 0 7 0xB1 0xC8) = some (.line 1 (bytes [4, 0, 0, 0, 7, 0xB1, 0xC8])) := by decide +kernel
theorem test_witness_ResponseBytesDecodeToTheRegisters :
    Instr.wf 0#8 (.rsp 1 []) = true ∧ Instr.wf 0#8 (.rsp 1 (regsOf samplesS8)) = true := by decide
theorem test_witness_RxByteTakesExactlyOneBranch :
    loaded.rxIrqEn = true ∧
    ((pending (readAll.take 7) loaded).rxIrqEn = false ∧ (pending (readAll.take 7) loaded).frameSignal = .framePending ∧
      (pending (readAll.take 7) loaded).byteCnt.toNat < 8) ∧
    (waiting.rxIrqEn = false ∧ ¬ (waiting.frameSignal = .framePending ∧ waiting.byteCnt.toNat < 8)) := by decide +kernel
theorem test_witness_AddressFilterOpensATransactionOrSignalsAMismatch :
    1#8 = loaded.cfg.slaveAddr ∧ 0#8 ≠ loaded.cfg.slaveAddr ∧ 0xFF#8 ≠ loaded.cfg.slaveAddr := by decide
theorem test_witness_CollectAppendsTheByte :
    (pending (readAll.take 7) loaded).byteCnt.toNat < 8 ∧ (pending [1] loaded).byteCnt.toNat < 8 := by decide +kernel
theorem test_witness_OneInterruptPerTransaction :
    waiting.rxIrqEn = false ∧ ∃ t, exec .rearm waiting = .next t ∧ t.rxIrqEn = true := ⟨rfl, _, rfl, rfl⟩
theorem test_witness_CrcDetectsAnySingleByteChange : (0#8 : Byte) ≠ 0xFF#8 := by decide
theorem test_witness_ResponseHasItsLayout :
    (0 ≤ 7 ∧ bytes [0x01, 0x04, 0x00, 0x22, 0xC0] = respBuild 1 0 samplesS8) ∧
    (7 ≤ 7 ∧ (respBuild 1 7 samplesS8).length = 19) ∧
    (6 < 7 ∧ (regsOf samplesS8)[6]? = some samplesS8.temp1) := by decide +kernel
theorem test_witness_ResponseFrameGoesOutOnTheLine :
    Instr.wf loaded.cfg.slaveAddr (.rsp 1 (regsOf samplesS8)) = true := by decide
theorem test_witness_FullResponseHasNineteenBytesAndZeroResidue :
    ((7#16 : Half) = 7#16 ∨ RespCountMode.requested = .fixed7) ∧ ((0#16 : Half) = 7#16 ∨ RespCountMode.fixed7 = .fixed7) :=
  ⟨.inl rfl, .inr rfl⟩
theorem test_witness_ProtectIsAnyStrictSignedExcess :
    loaded.cfg = Config.default ∧ OutsideThresholds loaded.cfg (samples 3400 3400 3400 3400 0 (-21) 25) ∧
      ¬ OutsideThresholds loaded.cfg (samples 3650 3650 3650 3650 10000 (-20) 40) := by decide +kernel
theorem test_witness_SampleLoadStoresJudgesAndHandsOver : fresh.seq = .sample ∧ loaded.seq = .service := by decide
theorem test_witness_ProtectionHasNoHistory :
    fresh.cfg = (mismatched fresh).cfg ∧ fresh.seq = .sample ∧ (mismatched fresh).seq = .sample := by decide
theorem test_witness_ServiceWithoutAFrame :
    (loaded.seq = .service ∧ loaded.frameSignal = .idle) ∧
    ((mismatched loaded).seq = .service ∧ (mismatched loaded).frameSignal = .addressMismatch) := by decide
/-- V6, the third and fourth lines. -/
theorem test_witness_ServiceOfARejectedFrame :
    (verdictOf (frameOf 1 4 0 0 0 7 0xB1 0xC9) = .crcMismatch ∧
      (pending [1, 4, 0, 0, 0, 7, 0xB1, 0xC9] loaded).byteCnt = 8#4 ∧
      (pending [1, 4, 0, 0, 0, 7, 0xB1, 0xC9] loaded).seq = .service) ∧
    (verdictOf (frameOf 1 3 0 0 0 7 4 8) = .unsupportedRequest 7 3 ∧
      (pending [1, 3, 0, 0, 0, 7, 4, 8] loaded).byteCnt = 8#4 ∧
      (pending [1, 3, 0, 0, 0, 7, 4, 8] loaded).frameSignal = .framePending) := by decide +kernel
theorem test_witness_rejected_frames_stand_in_the_buffer :
    readFrame (pending [1, 4, 0, 0, 0, 7, 0xB1, 0xC9] loaded).frameBuf = .ok (frameOf 1 4 0 0 0 7 0xB1 0xC9) ∧
    readFrame (pending [1, 3, 0, 0, 0, 7, 4, 8] loaded).frameBuf = .ok (frameOf 1 3 0 0 0 7 4 8) := ⟨rfl, rfl⟩
theorem test_witness_ServiceOfAnAcceptedFrame :
    waiting.seq = .service ∧ waiting.frameSignal = .framePending ∧ waiting.byteCnt = 8#4 ∧
      verdictOf (frameOf 1 4 0 0 0 7 0xB1 0xC8) = .accept 7 ∧ waiting.cfg.respCountMode = .requested ∧
      ({ waiting with cfg := { waiting.cfg with respCountMode := .fixed7 } } : State).cfg.respCountMode = .fixed7 := by
  decide +kernel
theorem test_witness_accepted_frame_stands_in_the_buffer :
    readFrame waiting.frameBuf = .ok (frameOf 1 4 0 0 0 7 0xB1 0xC8) := rfl
theorem test_witness_EveryServiceTakenLeavesTheBlockListening : BlockInv waiting ∧ ServiceEnabled waiting :=
  ⟨test_waiting_inv, by decide +kernel⟩
theorem test_witness_HeldStepsStopByName :
    ((pending (readAll.take 7) loaded).seq = .service ∧ (pending (readAll.take 7) loaded).byteCnt.toNat < 8) ∧
    fresh.seq = .sample ∧ loaded.seq = .service ∧ 8 ≤ waiting.byteCnt.toNat := by decide +kernel
theorem test_witness_CycleIsSampleLoadThenService :
    fresh.seq = .sample ∧ BlockInv fresh ∧ ServiceEnabled (loadSamples samplesS8 fresh) ∧
      ¬ ServiceEnabled (loadSamples samplesS8 (pending [1] fresh)) :=
  ⟨rfl, test_fresh_inv, by decide +kernel, by decide +kernel⟩
/-- P1's six bytes and their CRC; the statement's first clause has no other premise. -/
theorem test_witness_ReqDeliversARequestWithItsCrc :
    bytes [1, 4, 0, 0, 0, 7] = [1#8, 4#8, (0#16).extractLsb' 8 8, (0#16).extractLsb' 0 8, (7#16).extractLsb' 8 8,
      (7#16).extractLsb' 0 8] ∧ 0xC8B1#16 = crcOf (bytes [1, 4, 0, 0, 0, 7]) ∧
    Listening loaded ∧ 1#8 = loaded.cfg.slaveAddr := by decide +kernel
/-- Quantity 7 and quantity 0. -/
theorem test_witness_ReadRequestIsAnsweredOnce :
    Instr.wf loaded.cfg.slaveAddr (.rir 1 0 7 0xB1 0xC8) = true ∧
      Instr.wf loaded.cfg.slaveAddr (.rir 1 0 0 0xF0 0x0A) = true ∧ Listening loaded ∧ loaded.seq = .service := by
  decide +kernel
theorem test_witness_BadCrcRequestIsDroppedSilently :
    Instr.wf loaded.cfg.slaveAddr (.badCrc 1 4 0 7 0xB1 0xC9) = true ∧ Listening loaded ∧ loaded.seq = .service := by
  decide +kernel
/-- Quantity 8, and function 0x03 with quantity 7. -/
theorem test_witness_UnsupportedRequestResetsTheReceiver :
    Instr.wf loaded.cfg.slaveAddr (.unsupported 1 4 0 8 0xF1 0xCC) = true ∧
      Instr.wf loaded.cfg.slaveAddr (.unsupported 1 3 0 7 4 8) = true ∧ Listening loaded ∧ loaded.seq = .service := by
  decide +kernel
theorem test_witness_ForeignFrameIsDiscardedAndRecovered :
    Instr.wf loaded.cfg.slaveAddr (.foreign 2 []) = true ∧ Listening loaded ∧ loaded.seq = .service ∧
      Listening fresh ∧ fresh.seq = .sample := by decide
theorem test_witness_IncompleteFrameHoldsTheService :
    Instr.wf loaded.cfg.slaveAddr (.incomplete 1 []) = true ∧
      Instr.wf loaded.cfg.slaveAddr (.incomplete 1 (bytes [4, 0, 0, 0, 7, 0xB1])) = true ∧ Listening loaded := by decide
theorem test_witness_RequestWaitsForItsService :
    (Instr.rir 1 0 7 0xB1 0xC8 = .rir 1 0 7 0xB1 0xC8 ∧ (4#8 : Byte) = 0x04#8) ∧
      Instr.badCrc 1 4 0 7 0xB1 0xC9 = .badCrc 1 4 0 7 0xB1 0xC9 ∧
      Instr.unsupported 1 3 0 7 4 8 = .unsupported 1 3 0 7 4 8 ∧ 1#8 = fresh.cfg.slaveAddr ∧
      Listening fresh ∧ fresh.seq = .sample := by decide
/-- V1: start addresses 0 and 0xFFFF with quantity 7. -/
theorem test_witness_StartAddressIsIgnored :
    Instr.wf loaded.cfg.slaveAddr (.rir 1 0 7 0xB1 0xC8) = true ∧
      Instr.wf loaded.cfg.slaveAddr (.rir 1 0xFFFF 7 0xB1 0xEC) = true ∧ Listening loaded := by decide +kernel
theorem test_witness_ReadReturnsTheLoadedSampleSet :
    Instr.wf fresh.cfg.slaveAddr (.rir fresh.cfg.slaveAddr 0 7#16 0xB1 0xC8) = true ∧ Listening fresh ∧
      fresh.seq = .sample := by decide +kernel
theorem test_witness_StepRunsTheDecodedOperation :
    decode loaded.cfg.slaveAddr (.edge 0b010 1 samplesS8) = .ok (.rxByte 1, []) ∧ Enabled loaded (.rxByte 1) = true ∧
    decode loaded.cfg.slaveAddr (.edge 0b001 1 samplesS8) = .ok (.sampleLoad samplesS8, []) ∧
    Enabled loaded (.sampleLoad samplesS8) = false ∧
    decode loaded.cfg.slaveAddr (.edge 0b011 1 samplesS8) = .error .simultaneousStrobes := ⟨rfl, rfl, rfl, rfl, rfl⟩
theorem test_witness_step_without_stimulus :
    loaded.stim = [] ∧ ServiceEnabled loaded ∧ fresh.stim = [] ∧ ¬ ServiceEnabled fresh ∧
      ¬ ServiceEnabled (pending [1] loaded) := by decide +kernel
theorem test_witness_ControlFollowsTheTransitionTable :
    (BlockInv fresh ∧ fresh.seq = .sample) ∧
    (BlockInv waiting ∧ waiting.seq = .service ∧ (waiting.frameSignal = .framePending → waiting.byteCnt = 8#4)) ∧
    (BlockInv (mismatched loaded) ∧ (mismatched loaded).frameSignal ≠ .framePending) :=
  ⟨⟨test_fresh_inv, rfl⟩, ⟨test_waiting_inv, rfl, fun _ => by decide +kernel⟩, test_mismatched_inv, by decide⟩
theorem test_witness_EveryStepKeepsTheInvariants : BlockInv waiting ∧ ∃ t, step waiting = .next t :=
  ⟨test_waiting_inv, _, rfl⟩
/-- The four ends of a step: it completes, two events at once, and MAIN starved on either half of the cycle. -/
theorem test_witness_BlockStopsOnlyWhenMisusedOrStarved :
    BlockInv loaded ∧ BlockInv fresh ∧ BlockInv (pending [1, 4, 0] loaded) ∧ PartialFrame (pending [1, 4, 0] loaded) :=
  ⟨test_loaded_inv, test_fresh_inv, test_partial_inv, by decide +kernel⟩
theorem test_witness_LineCarriesOnlyWholeResponses : WireLog waiting.txLog ∧ ∃ t, step waiting = .next t :=
  ⟨.empty, _, rfl⟩
/-- A stale byte, and the sample registers before the load. -/
theorem test_witness_UnspecifiedValuesNeverShow :
    SameUpToUnspecified fresh { fresh with x := SampleSet.zero, frameBuf := bufferOf [9] } ∧
      ∃ s', step { fresh with stim := [.edge 0b010 1 samplesS8] } = .next s' :=
  ⟨⟨rfl, (fun h => by cases h), (fun h => by cases h)⟩, _, rfl⟩
theorem test_witness_ConfigurationIsFixed : ∃ t, exec (.sampleLoad samplesS8) fresh = .next t := ⟨_, rfl⟩
theorem test_witness_BufferKeepsItsCanonicalForm :
    Memory.wf waiting.frameBuf = true ∧ ∃ t, exec .reset waiting = .next t := ⟨by decide +kernel, _, rfl⟩
theorem test_witness_OutputsStayExclusive :
    loaded.normalEn = !loaded.faultEn ∧ ∃ t, exec (.driveOutputs true) loaded = .next t := ⟨rfl, _, rfl⟩
/-- An operation for each clause that runs none of the writers it lists. -/
theorem test_witness_OnlyTheListedWritersChangeAnElement :
    (∃ t, exec .crc16Init waiting = .next t) ∧
      RunsNone .crc16Init [.addrFilter, .collect, .rearm, .recover, .reset, .sampleLoad, .driveOutputs, .transmit, .service] ∧
      (∃ t, exec (.rxByte 4) waiting = .next t) ∧
      RunsNone (.rxByte 4) [.transmit, .recover, .service, .sampleLoad, .driveOutputs, .reset, .function] ∧
      Instr.rxByte 4 ≠ .reset := ⟨⟨_, rfl⟩, by decide, ⟨_, rfl⟩, by decide, Instr.noConfusion⟩
theorem test_witness_IncompleteFrameFreezesTheOutputs :
    (pending [1] loaded).seq = .service ∧ PartialFrame (pending [1] loaded) ∧ (0b010#3).getLsbD 2 = false := by
  decide +kernel
theorem test_witness_incomplete_frame_steps :
    ∃ t, step { pending [1] loaded with stim := [.edge 0b010 4 samplesS8] } = .next t := ⟨_, rfl⟩
/-- The last byte of eight. -/
theorem test_witness_RemainingBytesLiftTheHold :
    (pending (readAll.take 7) loaded).seq = .service ∧ (pending (readAll.take 7) loaded).frameSignal = .framePending ∧
      (pending (readAll.take 7) loaded).rxIrqEn = false ∧
      (pending (readAll.take 7) loaded).byteCnt.toNat + (bytes [0xC8]).length ≤ 8 := by decide +kernel
/-- A listening block and one that is still collecting: the service follows in the one, is held in the other. -/
theorem test_witness_FrameClassesAreTheirBytesThenTheService :
    encode (.incomplete 1 (bytes [4])) = some (.line 1 (bytes [4])) ∧
      ServiceEnabled (receiveBytes (bytes [2, 4]) loaded) ∧ ¬ ServiceEnabled (receiveBytes (bytes [1, 4]) loaded) := by
  decide +kernel

end Sys2Proof.Tests
end

section
/-! PROOF. The frame receiver (40_frame_receiver.md): `COLLECT` appends its byte (R69), and the receive interrupt is enabled
again only together with the return to listening (R71). -/

namespace Sys2Proof.Machine

/-! ### The frame buffer, read after a write -/

/-- An index of the buffer reads back the byte just written to it. -/
theorem memRead_memStore_same (m : Memory) {i : Nat} (v : Byte) (hi : i < reqLen) :
    memRead (memStore m i v) i = .ok v :=
  (memRead_ok_iff _ _ _).2 ⟨hi, memLookup_memStore_same m i v⟩

/-- A write leaves the read of every other index alone, one outside the buffer included. -/
theorem memRead_memStore_other (m : Memory) {i j : Nat} (v : Byte) (h : j ≠ i) :
    memRead (memStore m i v) j = memRead m j := by
  simp [memRead, memLookup_memStore_other m v h]

/-! ### The operations of the receiver and of MAIN, where they complete -/

@[simp] theorem exec_rxByte (b : Byte) (s : State) : exec (.rxByte b) s = .next (receiveByte b s) := rfl

@[simp] theorem exec_addrFilter (b : Byte) (s : State) : exec (.addrFilter b) s = .next (filterByte b s) := rfl

/-- A guarded operation completes exactly where its guard holds and its body completes. -/
theorem guarded_next_iff {c : Prop} [Decidable c] {o : Host.Outcome State Fault Refusal} {e : Fault} {t : State} :
    (if c then o else .fault e) = .next t ↔ c ∧ o = .next t := by
  by_cases hc : c <;> simp [hc]

theorem exec_collect_next_iff (b : Byte) (s t : State) :
    exec (.collect b) s = .next t ↔ s.byteCnt.toNat < reqLen ∧ collectByte b s = t := by
  rw [← Host.Outcome.next.injEq (collectByte b s)]
  exact guarded_next_iff

theorem exec_sampleLoad_next_iff (smp : SampleSet) (s t : State) :
    exec (.sampleLoad smp) s = .next t ↔ SmpReady s ∧ loadSamples smp s = t := by
  rw [← Host.Outcome.next.injEq (loadSamples smp s)]
  exact guarded_next_iff

theorem exec_service_next_iff (s t : State) :
    exec .service s = .next t ↔ ServiceEnabled s ∧ serviceBody s = .next t := guarded_next_iff

theorem exec_cycle_next_iff (smp : SampleSet) (s t : State) :
    exec (.cycle smp) s = .next t ↔ SmpReady s ∧ serviceIfEnabled (loadSamples smp s) = .next t := guarded_next_iff

/-! ### The receive interrupt -/

theorem filterByte_rxIrqEn (b : Byte) (s : State) : (filterByte b s).rxIrqEn = false := by
  rw [filterByte_frame]

/-- No number of received bytes enables the receive interrupt. -/
theorem receiveBytes_rxIrqEn_off (bs : List Byte) {s : State} (h : s.rxIrqEn = false) :
    (receiveBytes bs s).rxIrqEn = false := by
  induction bs generalizing s with
  | nil => exact h
  | cons b bs ih => exact ih (receiveByte_rxIrqEn_off b h)

theorem serveVerdict_listening (f : Frame) (s : State) : Listening (serveVerdict f s) := by
  rcases serveVerdict_cases f s with ⟨_, h⟩ | ⟨_, _, h⟩ | ⟨_, _, h⟩ <;> rw [h] <;> exact ⟨rfl, rfl, rfl⟩

/-- A service either had nothing to do for the receiver or returned it to listening. -/
theorem serviceBody_rxIrqEn {s t : State} (h : serviceBody s = .next t) : t.rxIrqEn = s.rxIrqEn ∨ Listening t := by
  rcases serviceBody_cases s with ⟨_, he⟩ | ⟨_, he⟩ | ⟨_, f, _, he⟩ | ⟨_, _, he⟩ <;> rw [he] at h <;> cases h
  · exact .inl rfl
  · exact .inr ⟨rfl, rfl, rfl⟩
  · exact .inr (serveVerdict_listening f s)

theorem serviceIfEnabled_rxIrqEn {s t : State} (h : serviceIfEnabled s = .next t) :
    t.rxIrqEn = s.rxIrqEn ∨ Listening t := by
  rcases serviceIfEnabled_cases s with ⟨_, he⟩ | ⟨_, he⟩ <;> rw [he] at h
  · exact serviceBody_rxIrqEn h
  · cases h
    exact .inl rfl

/-- A transaction that begins with the receive interrupt disabled leaves it so or ends listening: only its service can
enable the interrupt. -/
theorem transact_rxIrqEn_off {bs : List Byte} {s t : State} (hs : s.rxIrqEn = false) (h : transact bs s = .next t) :
    t.rxIrqEn = false ∨ Listening t :=
  (serviceIfEnabled_rxIrqEn h).imp_left (·.trans (receiveBytes_rxIrqEn_off bs hs))

/-- R71, for every operation: once the receive interrupt is disabled it stays so, or the receiver has returned to
listening. -/
theorem exec_rxIrqEn_off {i : Instr} {s t : State} (hs : s.rxIrqEn = false) (h : exec i s = .next t) :
    t.rxIrqEn = false ∨ Listening t := by
  cases i with
  -- the frame classes are transactions
  | rir | badCrc | unsupported | foreign | incomplete => exact transact_rxIrqEn_off hs h
  -- the receiver never enables its interrupt
  | rxByte b => cases h; exact .inl (receiveByte_rxIrqEn_off b hs)
  | req => cases h; exact .inl (receiveBytes_rxIrqEn_off _ hs)
  | addrFilter b => cases h; exact .inl (filterByte_rxIrqEn b s)
  | collect b =>
    obtain ⟨_, rfl⟩ := (exec_collect_next_iff b s t).1 h
    exact .inl hs
  -- MAIN's steps: a load does not touch the receiver, a service rearms or recovers it
  | sampleLoad smp =>
    obtain ⟨_, rfl⟩ := (exec_sampleLoad_next_iff smp s t).1 h
    exact .inl hs
  | service =>
    obtain ⟨_, hb⟩ := (exec_service_next_iff s t).1 h
    exact (serviceBody_rxIrqEn hb).imp_left (·.trans hs)
  | cycle smp =>
    obtain ⟨_, hb⟩ := (exec_cycle_next_iff smp s t).1 h
    exact (serviceIfEnabled_rxIrqEn hb).imp_left (·.trans hs)
  -- the three operations that put the receiver into its listening state
  | reset | recover | rearm => cases h; exact .inr ⟨rfl, rfl, rfl⟩
  -- everything else writes no element of the receiver
  | rsp | crc16Init | crc16Update | crc16 | crcCheck | validate | respBuild | transmit | protect | driveOutputs =>
    cases h; exact .inl hs

/-- With the receive interrupt disabled a received byte is collected or leaves no trace (R67, R70). -/
theorem receiveByte_collected_or_discarded (b : Byte) {s : State} (hs : s.rxIrqEn = false) :
    receiveByte b s = s ∨ exec (.collect b) s = .next (receiveByte b s) := by
  rcases receiveByte_cases b s with ⟨h, _⟩ | ⟨h, _⟩ | ⟨_, hc, he⟩ | ⟨_, _, he⟩
  · simp [hs] at h
  · simp [hs] at h
  · exact .inr ((exec_collect_next_iff b s _).2 ⟨hc.2, he.symm⟩)
  · exact .inl he

/-! ### The statements -/

/-- Settles O11: the index written is `byte_cnt`, below 8, so the byte reads back there, every other index reads as
before, and the 4-bit count does not wrap. -/
theorem collectAppendsTheByte : Obligations.CollectAppendsTheByte := by
  intro b s hlt
  have hcount : (s.byteCnt + 1#4).toNat = s.byteCnt.toNat + 1 := by bv_omega
  exact ⟨collectByte b s, (exec_collect_next_iff b s _).2 ⟨hlt, rfl⟩, rfl, hcount,
    memRead_memStore_same _ b hlt, fun i hi => memRead_memStore_other _ b hi⟩

/-- Settles O12: from the case analysis of one received byte, and from `exec_rxIrqEn_off` for every other operation. -/
theorem oneInterruptPerTransaction : Obligations.OneInterruptPerTransaction := by
  refine ⟨fun b s => ⟨_, exec_addrFilter b s, filterByte_rxIrqEn b s⟩, fun b s hs => ?_, fun i s t hs h ht => ?_⟩
  · exact ⟨_, exec_rxByte b s, receiveByte_rxIrqEn_off b hs, receiveByte_collected_or_discarded b hs⟩
  · rcases exec_rxIrqEn_off hs h with hoff | ⟨_, hidle, hcount⟩
    · simp [ht] at hoff
    · exact ⟨hidle, hcount⟩

end Sys2Proof.Machine
end

section
/-! PROOF. The CRC engine's starting value, and `CRC_CHECK` with the bytes compared as numbers (41_crc16.md R74,
R77). -/

namespace Sys2Proof.Machine

/-! ### The bytes of a half as numbers -/

@[simp] theorem loByte_toNat (v : Half) : (loByte v).toNat = v.toNat % 256 := by
  simp [loByte]

@[simp] theorem hiByte_toNat (v : Half) : (hiByte v).toNat = v.toNat / 256 := by
  have hv : v.toNat < 65536 := v.isLt
  rw [hiByte, BitVec.extractLsb'_toNat, Nat.shiftRight_eq_div_pow]
  omega

theorem loByte_eq_iff_toNat (v : Half) (b : Byte) : loByte v = b ↔ v.toNat % 256 = b.toNat := by
  rw [← BitVec.toNat_inj, loByte_toNat]

theorem hiByte_eq_iff_toNat (v : Half) (b : Byte) : hiByte v = b ↔ v.toNat / 256 = b.toNat := by
  rw [← BitVec.toNat_inj, hiByte_toNat]

/-! ### The CRC of a frame -/

/-- `CRC_CHECK` byte by byte (R77); `crcCheck_iff_crcRx` is the same test on the joined half. -/
theorem crcCheck_iff_bytes (f : Frame) :
    crcCheck f = true ↔ loByte (crcOf (frameHead f)) = f.crcLo ∧ hiByte (crcOf (frameHead f)) = f.crcHi := by
  rw [crcCheck, decide_eq_true_eq]

@[simp] theorem crcOf_nil : crcOf [] = crcInit := rfl

/-! ### The statements -/

/-- Settles O14: the empty fold leaves the starting value of R74. -/
theorem crcStartsAtAllOnes : Obligations.CrcStartsAtAllOnes :=
  ⟨rfl, crcOf_nil⟩

/-- Settles O18: the two byte equations of `CRC_CHECK`, each read as the remainder and the quotient of the CRC by 256. -/
theorem crcCheckComparesBothBytes : Obligations.CrcCheckComparesBothBytes := by
  intro f
  rw [crcCheck_iff_bytes, loByte_eq_iff_toNat, hiByte_eq_iff_toNat]
  rfl

end Sys2Proof.Machine
end

section
/-! PROOF. The frame validator (42_frame_validator.md): `VALIDATE` with its fields compared as numbers (R83), and what
`SERVICE` does with a complete frame for each verdict (R84, R85, R86). -/

namespace Sys2Proof.Machine

/-! ### The fields of a frame as numbers -/

@[simp] theorem joinBytes_toNat (a b : Byte) : (joinBytes a b).toNat = 256 * a.toNat + b.toNat := by
  have hb : b.toNat < 2 ^ 8 := b.isLt
  rw [joinBytes, BitVec.toNat_append, ← Nat.shiftLeft_add_eq_or_of_lt hb, Nat.shiftLeft_eq]
  omega

theorem joinBytes_eq_ofNat (a b : Byte) : joinBytes a b = BitVec.ofNat 16 (256 * a.toNat + b.toNat) := by
  rw [← joinBytes_toNat, BitVec.ofNat_toNat, BitVec.setWidth_eq]

/-- The rejection test of R83, the quantity read as an unsigned number. -/
theorem unsupportedFields_iff (f : Frame) :
    unsupportedFields f = true ↔ 7 < 256 * f.qtyHi.toNat + f.qtyLo.toNat ∨ f.function ≠ 0x04#8 := by
  rw [unsupportedFields, decide_eq_true_eq, quantityOf, joinBytes_toNat]

/-! ### The service of a complete frame, by its verdict -/

/-- A complete frame holds no service back: R116 holds it for an incomplete one only. -/
theorem serviceEnabled_of_complete {s : State} (hseq : s.seq = .service) (hn : s.byteCnt = 8#4) : ServiceEnabled s :=
  ⟨hseq, by simp [hn, reqLen]⟩

/-- Where it is enabled, `SERVICE` on its own is the service of a transaction. -/
theorem exec_service_of_enabled {s : State} (h : ServiceEnabled s) : exec .service s = serviceIfEnabled s :=
  (if_pos h).trans (if_pos h).symm

/-- `SERVICE` of a complete frame follows the verdict and hands over to the next sample load (R114). -/
theorem exec_service_complete {s : State} {f : Frame} (hseq : s.seq = .service) (hf : s.frameSignal = .framePending)
    (hn : s.byteCnt = 8#4) (hr : readFrame s.frameBuf = .ok f) :
    exec .service s = .next { serveVerdict f s with seq := .sample } :=
  (exec_service_of_enabled (serviceEnabled_of_complete hseq hn)).trans (serviceIfEnabled_complete hseq hf hn hr)

theorem serveVerdict_of_crcMismatch {f : Frame} (s : State) (hv : verdictOf f = .crcMismatch) :
    serveVerdict f s = rearmReceiver (raiseCondition .crcMismatch s) := by
  rw [serveVerdict, hv]

theorem serveVerdict_of_unsupportedRequest {f : Frame} {q : Half} {fc : Byte} (s : State)
    (hv : verdictOf f = .unsupportedRequest q fc) :
    serveVerdict f s = recoverReceiver (raiseCondition (.unsupportedRequest q fc) s) := by
  rw [serveVerdict, hv]

theorem serveVerdict_of_accept {f : Frame} {q : Half} (s : State) (hv : verdictOf f = .accept q) :
    serveVerdict f s = rearmReceiver (raiseCondition (.responded q) (transmitBytes (responseTo f q s) s)) := by
  rw [serveVerdict, hv]

/-! ### The statements -/

/-- Settles O22: the three cases of `VALIDATE` are the three branches of R83 once its two tests are read as numbers; the
quantity is its two bytes joined. -/
theorem validateGivesTheVerdictInOrder : Obligations.ValidateGivesTheVerdictInOrder := by
  intro f
  have hcrc : crcCheck f = true ↔ crcOf [f.address, f.function, f.startHi, f.startLo, f.qtyHi, f.qtyLo] =
      BitVec.ofNat 16 (256 * f.crcHi.toNat + f.crcLo.toNat) := by
    rw [crcCheck_iff_crcRx, crcRxOf, joinBytes_eq_ofNat, frameHead]
  have hfields := unsupportedFields_iff f
  have hqty : quantityOf f = BitVec.ofNat 16 (256 * f.qtyHi.toNat + f.qtyLo.toNat) := joinBytes_eq_ofNat _ _
  rcases verdictOf_cases f with ⟨hc, hv⟩ | ⟨hc, hu, hv⟩ | ⟨hc, hu, hv⟩
  · rw [hv, if_pos (mt hcrc.2 (by simp [hc]))]
  · rw [hv, if_neg (not_not.2 (hcrc.1 hc)), if_pos (hfields.1 hu), hqty]
  · rw [hv, if_neg (not_not.2 (hcrc.1 hc)), if_neg (mt hfields.2 (by simp [hu])), hqty]

/-- Settles O33: the service follows the verdict, and the handlers' writes are the listed ones: `REARM` after a CRC
mismatch, `RECOVER` after an unsupported request. -/
theorem serviceOfARejectedFrame : Obligations.ServiceOfARejectedFrame := by
  intro s f hseq hf hn hr
  refine ⟨fun hv => ?_, fun q fc hv => ?_⟩
  · rw [exec_service_complete hseq hf hn hr, serveVerdict_of_crcMismatch s hv]
    rfl
  · rw [exec_service_complete hseq hf hn hr, serveVerdict_of_unsupportedRequest s hv]
    rfl

/-- Settles O34: the service transmits `responseTo`, whose register count is `respCount` of the mode. -/
theorem serviceOfAnAcceptedFrame : Obligations.ServiceOfAnAcceptedFrame := by
  intro s f q hseq hf hn hr hv
  refine ⟨respCount s.cfg.respCountMode q, fun hmode => ?_, fun hmode => ?_, ?_⟩
  · rw [hmode, respCount]
  · rw [hmode, respCount]
  · rw [exec_service_complete hseq hf hn hr, serveVerdict_of_accept s hv]
    rfl

end Sys2Proof.Machine
end

section
/-! PROOF. The response builder (43_response_builder.md R90): where each byte of a response stands. -/

namespace Sys2Proof.Machine

/-! ### A sequence with its CRC -/

theorem take_length_appendCrc (m : List Byte) : (appendCrc m).take m.length = m :=
  List.take_left

theorem getElem?_appendCrc_of_lt {m : List Byte} {i : Nat} (hi : i < m.length) : (appendCrc m)[i]? = m[i]? :=
  List.getElem?_append_left hi

theorem getElem?_appendCrc_crcLo (m : List Byte) : (appendCrc m)[m.length]? = some (loByte (crcOf m)) := by
  simp [appendCrc]

theorem getElem?_appendCrc_crcHi (m : List Byte) : (appendCrc m)[m.length + 1]? = some (hiByte (crcOf m)) := by
  simp [appendCrc]

/-! ### The payload -/

/-- Register `i` stands in the payload at byte `2i`, its high byte first (R52, R91). -/
theorem getElem?_payloadOf {vs : List S16} {i : Nat} {v : S16} (hv : vs[i]? = some v) :
    (payloadOf vs)[2 * i]? = some (hiByte v) ∧ (payloadOf vs)[2 * i + 1]? = some (loByte v) := by
  induction vs generalizing i with
  | nil => simp at hv
  | cons w ws ih =>
    cases i with
    | zero =>
      obtain rfl : w = v := by simpa using hv
      exact ⟨rfl, rfl⟩
    | succ i => simpa [payloadOf, Nat.mul_succ] using ih (by simpa using hv)

/-! ### The response frame -/

/-- The bytes of a response that its CRC is taken over: `p` of R90 before its last line. -/
def rspBody (a : Byte) (regs : List S16) : List Byte :=
  a :: funcRir :: BitVec.ofNat 8 (2 * regs.length) :: payloadOf regs

theorem rspFrame_eq_appendCrc_rspBody (a : Byte) (regs : List S16) : rspFrame a regs = appendCrc (rspBody a regs) := rfl

@[simp] theorem rspBody_length (a : Byte) (regs : List S16) : (rspBody a regs).length = 3 + 2 * regs.length := by
  simp [rspBody]; omega

/-- All bytes before the CRC are those of the body. -/
theorem getElem?_rspFrame_of_lt (a : Byte) {regs : List S16} {i : Nat} (hi : i < 3 + 2 * regs.length) :
    (rspFrame a regs)[i]? = (rspBody a regs)[i]? :=
  getElem?_appendCrc_of_lt (hi.trans_eq (rspBody_length a regs).symm)

theorem getElem?_rspFrame_header (a : Byte) (regs : List S16) :
    (rspFrame a regs)[0]? = some a ∧ (rspFrame a regs)[1]? = some funcRir ∧
    (rspFrame a regs)[2]? = some (BitVec.ofNat 8 (2 * regs.length)) := ⟨rfl, rfl, rfl⟩

theorem getElem?_rspFrame_register (a : Byte) {regs : List S16} {i : Nat} {v : S16} (hv : regs[i]? = some v) :
    (rspFrame a regs)[3 + 2 * i]? = some (hiByte v) ∧ (rspFrame a regs)[4 + 2 * i]? = some (loByte v) := by
  have hi : i < regs.length := (List.getElem?_eq_some_iff.1 hv).1
  have hbody (k : Nat) : (rspBody a regs)[k + 3]? = (payloadOf regs)[k]? := rfl
  obtain ⟨hhi, hlo⟩ := getElem?_payloadOf hv
  constructor
  · rw [getElem?_rspFrame_of_lt a (by omega), Nat.add_comm, hbody, hhi]
  · rw [getElem?_rspFrame_of_lt a (by omega), show 4 + 2 * i = 2 * i + 1 + 3 by omega, hbody, hlo]

/-- The last two bytes of a response are the CRC of all bytes before them, low byte first (R78, R90). -/
theorem getElem?_rspFrame_crc (a : Byte) (regs : List S16) :
    (rspFrame a regs)[3 + 2 * regs.length]? =
      some (loByte (crcOf ((rspFrame a regs).take (3 + 2 * regs.length)))) ∧
    (rspFrame a regs)[4 + 2 * regs.length]? =
      some (hiByte (crcOf ((rspFrame a regs).take (3 + 2 * regs.length)))) := by
  have hlast : 4 + 2 * regs.length = (rspBody a regs).length + 1 := by rw [rspBody_length]; omega
  rw [hlast, ← rspBody_length a regs, rspFrame_eq_appendCrc_rspBody, take_length_appendCrc]
  exact ⟨getElem?_appendCrc_crcLo _, getElem?_appendCrc_crcHi _⟩

/-! ### The statement -/

/-- Settles O23: `RESP_BUILD` is the response frame of the first `n` registers, and the layout is that of a response
frame of any registers. -/
theorem responseHasItsLayout : Obligations.ResponseHasItsLayout := by
  rintro a n x _ hn rfl
  have hlen : ((regsOf x).take n).length = n := List.length_take_of_le hn
  have hsize := rspFrame_length a ((regsOf x).take n)
  obtain ⟨haddr, hfn, hcount⟩ := getElem?_rspFrame_header a ((regsOf x).take n)
  obtain ⟨hcrcLo, hcrcHi⟩ := getElem?_rspFrame_crc a ((regsOf x).take n)
  rw [hlen] at hsize hcount hcrcLo hcrcHi
  refine ⟨hsize, haddr, hfn, hcount, fun i v hi hv => ?_, hcrcLo, hcrcHi⟩
  exact getElem?_rspFrame_register a ((List.getElem?_take_of_lt hi).trans hv)

end Sys2Proof.Machine
end

section
/-! PROOF. The protection comparator (44_protection.md): `PROTECT` with its comparisons on numbers (R100, R102), and what
the outputs after a sample load depend on (R103). -/

namespace Sys2Proof.Machine

/-! ### The comparator on numbers -/

@[simp] theorem overLimit_iff (v limit : S16) : overLimit v limit = true ↔ limit.toInt < v.toInt :=
  BitVec.slt_iff_toInt_lt

@[simp] theorem underLimit_iff (v limit : S16) : underLimit v limit = true ↔ v.toInt < limit.toInt :=
  BitVec.slt_iff_toInt_lt

/-- `PROTECT` is the comparison of the denoted integers (R100, R102). -/
theorem protectDecision_iff_outsideThresholds (c : Config) (smp : SampleSet) :
    protectDecision c smp = true ↔ OutsideThresholds c smp := by
  simp only [protectDecision, OutsideThresholds, Bool.or_eq_true, overLimit_iff, underLimit_iff, or_assoc]

/-- The thresholds of this hardware as numbers (R7). -/
theorem default_thresholds_toInt :
    Config.default.vCellMax.toInt = 3650 ∧ Config.default.iMax.toInt = 10000 ∧
    Config.default.tMin.toInt = -20 ∧ Config.default.tMax.toInt = 40 := by decide

/-! ### The outputs after a sample load -/

/-- Where it is enabled, `SAMPLE_LOAD` takes the sample set (R99). -/
theorem exec_sampleLoad_of_ready (smp : SampleSet) {s : State} (h : SmpReady s) :
    exec (.sampleLoad smp) s = .next (loadSamples smp s) :=
  (exec_sampleLoad_next_iff smp s _).2 ⟨h, rfl⟩

/-- Both outputs are a function of the configuration and the sample set (R103). -/
theorem loadSamples_outputs_eq_of_cfg_eq (smp : SampleSet) {s s' : State} (hcfg : s.cfg = s'.cfg) :
    (loadSamples smp s).faultEn = (loadSamples smp s').faultEn ∧
    (loadSamples smp s).normalEn = (loadSamples smp s').normalEn := by
  simp [hcfg]

/-! ### The statements -/

/-- Settles O27: each comparison of the decision is one on integers; the thresholds are then replaced by the numbers of
this hardware, and a temperature outside its closed range is below the one bound or above the other. -/
theorem protectIsAnyStrictSignedExcess : Obligations.ProtectIsAnyStrictSignedExcess := by
  refine fun c smp => ⟨protectDecision_iff_outsideThresholds c smp, ?_⟩
  rintro rfl
  obtain ⟨hv, hi, hmin, hmax⟩ := default_thresholds_toInt
  simp only [protectDecision_iff_outsideThresholds, OutsideThresholds, hv, hi, hmin, hmax, not_and_or, not_le, or_assoc]

/-- Settles O30: both loads are enabled, and the outputs they drive depend on the configuration and the sample set only. -/
theorem protectionHasNoHistory : Obligations.ProtectionHasNoHistory := fun smp _ _ hcfg hs hs' =>
  ⟨_, _, exec_sampleLoad_of_ready smp hs, exec_sampleLoad_of_ready smp hs', loadSamples_outputs_eq_of_cfg_eq smp hcfg⟩

end Sys2Proof.Machine
end

section
/-! PROOF. The encodings (30_encoding.md): the strobe vector (R60, R61), the request space (R49) and the response stream
(R54, R91). -/

namespace Sys2Proof

open Machine

/-! ### The strobe vector -/

/-- The strobe vectors: a reset, one event, none, or two events at once. -/
theorem strobes_cases (ev : BitVec 3) :
    ev.getLsbD 2 = true ∨ ev = 0b010#3 ∨ ev = 0b001#3 ∨ ev = 0b000#3 ∨ ev = 0b011#3 := by
  revert ev; decide

theorem decode_edge_reset (addr : Byte) {ev : BitVec 3} (b : Byte) (smp : SampleSet) (h : ev.getLsbD 2 = true) :
    decode addr (.edge ev b smp) = .ok (.reset, []) := by
  rw [decode, decodeEdge, if_pos h]; rfl

@[simp] theorem decode_edge_rxByte (addr b : Byte) (smp : SampleSet) :
    decode addr (.edge 0b010#3 b smp) = .ok (.rxByte b, []) := rfl

@[simp] theorem decode_edge_sampleLoad (addr b : Byte) (smp : SampleSet) :
    decode addr (.edge 0b001#3 b smp) = .ok (.sampleLoad smp, []) := rfl

@[simp] theorem decode_edge_service (addr b : Byte) (smp : SampleSet) :
    decode addr (.edge 0b000#3 b smp) = .ok (.service, []) := rfl

@[simp] theorem decode_edge_twoEvents (addr b : Byte) (smp : SampleSet) :
    decode addr (.edge 0b011#3 b smp) = .error .simultaneousStrobes := rfl

/-- Everything an edge can be decoded to (R60, R61). -/
theorem decode_edge_cases (addr : Byte) (ev : BitVec 3) (b : Byte) (smp : SampleSet) :
    (ev.getLsbD 2 = true ∧ decode addr (.edge ev b smp) = .ok (.reset, [])) ∨
    decode addr (.edge ev b smp) = .ok (.rxByte b, []) ∨
    decode addr (.edge ev b smp) = .ok (.sampleLoad smp, []) ∨
    decode addr (.edge ev b smp) = .ok (.service, []) ∨
    (ev = 0b011#3 ∧ decode addr (.edge ev b smp) = .error .simultaneousStrobes) := by
  rcases strobes_cases ev with h | rfl | rfl | rfl | rfl
  · exact .inl ⟨h, decode_edge_reset addr b smp h⟩
  · exact .inr (.inl rfl)
  · exact .inr (.inr (.inl rfl))
  · exact .inr (.inr (.inr (.inl rfl)))
  · exact .inr (.inr (.inr (.inr ⟨rfl, rfl⟩)))

/-! ### The request space -/

/-- The class of a complete frame by the two tests of `VALIDATE` (R49, R87). -/
theorem classOf_eq (f : Frame) : classOf f =
    if crcCheck f = false then
      .badCrc f.address f.function (startAddrOf f) (quantityOf f) f.crcLo f.crcHi
    else if unsupportedFields f = true then
      .unsupported f.address f.function (startAddrOf f) (quantityOf f) f.crcLo f.crcHi
    else .rir f.address (startAddrOf f) (quantityOf f) f.crcLo f.crcHi := by
  rcases verdictOf_cases f with ⟨hc, hv⟩ | ⟨hc, hu, hv⟩ | ⟨hc, hu, hv⟩ <;> simp [classOf, *]

theorem decode_line_foreign {addr a : Byte} (rest : List Byte) (h : a ≠ addr) :
    decode addr (.line a rest) = .ok (.foreign a rest, []) := by
  simp [decode, decodeLine, h, lineStim]

theorem decode_line_incomplete (addr : Byte) {rest : List Byte} (h : rest.length < 7) :
    decode addr (.line addr rest) = .ok (.incomplete addr rest, []) := by
  have hline : decodeLine addr addr rest = (.incomplete addr rest, []) := by
    unfold decodeLine
    rw [if_pos rfl]
    split
    · simp only [List.length_cons] at h
      omega
    · rfl
  rw [decode, hline, lineStim]

/-- The bytes of a frame after its address. -/
abbrev frameTail (f : Frame) : List Byte :=
  [f.function, f.startHi, f.startLo, f.qtyHi, f.qtyLo, f.crcLo, f.crcHi]

theorem decode_line_frame (f : Frame) (more : List Byte) :
    decode f.address (.line f.address (frameTail f ++ more)) = .ok (classOf f, lineStim more) := by
  simp [decode, decodeLine]

/-- A frame written out from its fields, as the encoder does, decodes to its class. -/
theorem decode_line_mkFrame (a fn : Byte) (ss qq : Half) (lo hi : Byte) :
    decode a (.line a [fn, hiByte ss, loByte ss, hiByte qq, loByte qq, lo, hi]) =
      .ok (classOf (mkFrame a fn ss qq lo hi), []) :=
  decode_line_frame (mkFrame a fn ss qq lo hi) []

/-- Seven bytes or more behind the address byte are a frame's and what follows it. -/
theorem exists_frame_of_seven_le_length (a : Byte) {rest : List Byte} (h : 7 ≤ rest.length) :
    ∃ f more, f.address = a ∧ rest = frameTail f ++ more :=
  match rest, h with
  | f :: sh :: sl :: qh :: ql :: lo :: hi :: more, _ => ⟨⟨a, f, sh, sl, qh, ql, lo, hi⟩, more, rfl, rfl⟩

/-- Everything the bytes on the line can be decoded to (R49). -/
theorem decode_line_cases (addr a : Byte) (rest : List Byte) :
    (a ≠ addr ∧ decode addr (.line a rest) = .ok (.foreign a rest, [])) ∨
    (a = addr ∧ rest.length < 7 ∧ decode addr (.line a rest) = .ok (.incomplete a rest, [])) ∨
    ∃ f more, f.address = addr ∧ decode addr (.line a rest) = .ok (classOf f, lineStim more) := by
  by_cases ha : a = addr
  · subst ha
    by_cases hn : rest.length < 7
    · exact .inr (.inl ⟨rfl, hn, decode_line_incomplete a hn⟩)
    · obtain ⟨f, more, rfl, rfl⟩ := exists_frame_of_seven_le_length a (not_lt.1 hn)
      exact .inr (.inr ⟨f, more, rfl, decode_line_frame f more⟩)
  · exact .inl ⟨ha, decode_line_foreign rest ha⟩

/-- The rejection test in the words of the row's constraint (R49). -/
theorem unsupportedFields_mkFrame (a f : Byte) (ss qq : Half) (lo hi : Byte) :
    unsupportedFields (mkFrame a f ss qq lo hi) = true ↔ regCount < qq.toNat ∨ f ≠ funcRir := by
  rw [unsupportedFields, decide_eq_true_eq, quantityOf_mkFrame, mkFrame]

/-- The class of a frame meets the constraints of its row. -/
theorem classOf_wf (f : Frame) : (classOf f).wf f.address = true := by
  obtain ⟨a, fn, ss, qq, lo, hi, rfl⟩ : ∃ a fn ss qq lo hi, f = mkFrame a fn ss qq lo hi :=
    ⟨_, _, _, _, _, _, (mkFrame_fields f).symm⟩
  have hfields := unsupportedFields_mkFrame a fn ss qq lo hi
  rw [classOf_eq, startAddrOf_mkFrame, quantityOf_mkFrame]
  split
  · next hc => exact (wf_badCrc_iff ..).2 ⟨rfl, hc⟩
  · next hc =>
    have hcrc : crcCheck (mkFrame a fn ss qq lo hi) = true := by simpa using hc
    split
    · next hu => exact (wf_unsupported_iff ..).2 ⟨rfl, hcrc, hfields.1 hu⟩
    · next hu =>
      obtain ⟨hq, rfl⟩ : qq.toNat ≤ regCount ∧ fn = funcRir := by simpa [not_or] using mt hfields.2 hu
      exact (wf_rir_iff ..).2 ⟨rfl, hcrc, hq⟩

/-! ### The response stream -/

theorem decodeRspHead_of_count (a : Byte) {n : Nat} (hn : n ≤ regCount) :
    decodeRspHead a funcRir (BitVec.ofNat 8 (2 * n)) = some (a, n) := by
  have hcnt : (BitVec.ofNat 8 (2 * n)).toNat = 2 * n := by
    rw [BitVec.toNat_ofNat]; simp only [regCount] at hn; omega
  rw [decodeRspHead, hcnt, if_pos ⟨rfl, by omega, by omega⟩, Nat.mul_div_cancel_left n (by decide)]

/-- A response decodes to its address and registers (R91): the count byte tells how long the payload is, and the payload
reads back. -/
theorem decodeRsp_rspFrame (a : Byte) {regs : List S16} (h : regs.length ≤ regCount) :
    decodeRsp (rspFrame a regs) = some (.rsp a regs) := by
  have htake (l : List Byte) : (payloadOf regs ++ l).take (2 * regs.length) = payloadOf regs :=
    List.take_left' (payloadOf_length regs)
  rw [rspFrame_eq_appendCrc_rspBody, appendCrc]
  simp only [rspBody, List.cons_append, decodeRsp, decodeRspHead_of_count a h, htake]
  rw [if_pos ⟨by simp, rfl⟩, regsOfPayload_payloadOf, Option.map_some]

/-! ### The statements -/

/-- Settles O7: a frame's encoding is its bytes in order, whose class is told by the two tests the row's constraints name. -/
theorem decodeOfEncodeGivesTheOperationBack : Obligations.DecodeOfEncodeGivesTheOperationBack := by
  intro addr i st hwf henc
  cases i with
  | rir a ss qq lo hi =>
    obtain ⟨rfl, hcrc, hq⟩ := (wf_rir_iff ..).1 hwf
    cases henc
    rw [decode_line_mkFrame, classOf_eq, if_neg (by simp [hcrc]),
      if_neg (by simpa [unsupportedFields_mkFrame] using hq)]
    simp [mkFrame, startAddrOf, quantityOf]
  | badCrc a f ss qq lo hi =>
    obtain ⟨rfl, hcrc⟩ := (wf_badCrc_iff ..).1 hwf
    cases henc
    rw [decode_line_mkFrame, classOf_eq, if_pos hcrc]
    simp [mkFrame, startAddrOf, quantityOf]
  | unsupported a f ss qq lo hi =>
    obtain ⟨rfl, hcrc, hfields⟩ := (wf_unsupported_iff ..).1 hwf
    cases henc
    rw [decode_line_mkFrame, classOf_eq, if_neg (by simp [hcrc]), if_pos ((unsupportedFields_mkFrame ..).2 hfields)]
    simp [mkFrame, startAddrOf, quantityOf]
  | foreign a rest =>
    cases henc
    exact decode_line_foreign rest ((wf_foreign_iff ..).1 hwf)
  | incomplete a rest =>
    obtain ⟨rfl, hlen⟩ := (wf_incomplete_iff ..).1 hwf
    cases henc
    exact decode_line_incomplete a hlen
  | reset | rxByte | sampleLoad | service | cycle | req => cases henc; rfl
  | rsp | addrFilter | collect | crc16Init | crc16Update | crc16 | crcCheck | validate | respBuild | transmit | protect
  | driveOutputs | recover | rearm => cases henc

/-- Settles O8: the constraint of the row is the bound on the register count. -/
theorem responseBytesDecodeToTheRegisters : Obligations.ResponseBytesDecodeToTheRegisters :=
  fun a _ hwf => decodeRsp_rspFrame a (of_decide_eq_true hwf)

/-- Settles O4: the three classes by the first byte and the number of bytes; a complete frame's class by its two tests, the
CRC compared with `crcRx` and the fields as numbers. -/
theorem requestSpaceIsClassified : Obligations.RequestSpaceIsClassified := by
  refine fun addr a rest => ⟨decode_line_foreign rest, ?_, ?_⟩
  · rintro rfl hlen
    exact decode_line_incomplete a hlen
  · rintro f sh sl qh ql lo hi more rfl rfl
    have hcrc : crcCheck ⟨a, f, sh, sl, qh, ql, lo, hi⟩ = false ↔ crcOf [a, f, sh, sl, qh, ql] ≠ joinBytes hi lo := by
      rw [← Bool.not_eq_true, crcCheck_iff_crcRx]; rfl
    have hfields := unsupportedFields_iff ⟨a, f, sh, sl, qh, ql, lo, hi⟩
    refine (decode_line_frame ⟨a, f, sh, sl, qh, ql, lo, hi⟩ more).trans ?_
    simp only [classOf_eq, hcrc, hfields, startAddrOf, quantityOf]

/-- Settles O6: an edge selects operations without constraints; bytes on the line fall into a class by tests that are its
row's constraints. -/
theorem decodedOperationsAreWellFormed : Obligations.DecodedOperationsAreWellFormed := by
  intro addr st i left h
  cases st with
  | edge ev b smp =>
    rcases decode_edge_cases addr ev b smp with ⟨_, he⟩ | he | he | he | ⟨_, he⟩ <;> rw [he] at h <;> cases h <;> rfl
  | line a rest =>
    rcases decode_line_cases addr a rest with ⟨ha, he⟩ | ⟨ha, hn, he⟩ | ⟨f, more, rfl, he⟩ <;> rw [he] at h <;> cases h
    · exact (wf_foreign_iff ..).2 ha
    · exact (wf_incomplete_iff ..).2 ⟨ha, hn⟩
    · exact classOf_wf f
  | cycle | req => cases h; rfl

/-- Settles O3: one equation of the decoder per strobe vector. -/
theorem strobesSelectTheOperation : Obligations.StrobesSelectTheOperation := by
  have hrst (ev : BitVec 3) : ev &&& 0b100#3 = 0b100#3 → ev.getLsbD 2 = true := by revert ev; decide
  refine fun addr ev b smp => ⟨fun h => decode_edge_reset addr b smp (hrst ev h), ?_, ?_, ?_, ?_⟩ <;> rintro rfl
  · exact decode_edge_rxByte addr b smp
  · exact decode_edge_sampleLoad addr b smp
  · exact decode_edge_service addr b smp
  · exact decode_edge_twoEvents addr b smp

/-- Settles O5: the decoder evaluated on the five words. -/
theorem sampleWordsDecodeAsTheSpecReadsThem : Obligations.SampleWordsDecodeAsTheSpecReadsThem := by
  unfold Obligations.SampleWordsDecodeAsTheSpecReadsThem
  decide +kernel

end Sys2Proof
end

section
/-! PROOF. Rules of the state's operations that several families of statements use: a received byte by its branch (R67),
the frame buffer after a store, a held service (R116). -/

namespace Sys2Proof.Machine

/-! ### One received byte, by its branch -/

theorem receiveByte_of_match {b : Byte} {s : State} (hi : s.rxIrqEn = true) (ha : b = s.cfg.slaveAddr) :
    receiveByte b s = { s with rxIrqEn := false, frameBuf := memStore s.frameBuf 0 b, byteCnt := 1#4,
                               frameSignal := .framePending } := by
  rw [receiveByte, if_pos hi, filterByte, if_pos ha]

theorem receiveByte_of_mismatch {b : Byte} {s : State} (hi : s.rxIrqEn = true) (ha : b ≠ s.cfg.slaveAddr) :
    receiveByte b s = { s with rxIrqEn := false, byteCnt := 0#4, frameSignal := .addressMismatch } := by
  rw [receiveByte, if_pos hi, filterByte, if_neg ha]

theorem receiveByte_of_collecting (b : Byte) {s : State} (hi : s.rxIrqEn = false) (hc : Collecting s) :
    receiveByte b s = collectByte b s := by
  rw [receiveByte, if_neg (by simp [hi]), if_pos hc]

theorem receiveByte_of_discarding (b : Byte) {s : State} (hi : s.rxIrqEn = false) (hc : ¬ Collecting s) :
    receiveByte b s = s := by
  rw [receiveByte, if_neg (by simp [hi]), if_neg hc]

/-- Collecting counts one byte, without wrapping. -/
theorem byteCnt_add_one_toNat {s : State} (h : s.byteCnt.toNat < reqLen) :
    (s.byteCnt + 1#4).toNat = s.byteCnt.toNat + 1 := by
  simp only [reqLen] at h
  bv_omega

/-! ### The frame buffer -/

/-- One store keeps two buffers equal at an index where they were equal, and makes them equal where it writes. -/
theorem memLookup_memStore_congr {m n : Memory} {i j : Nat} (v : Byte) (h : j ≠ i → memLookup m j = memLookup n j) :
    memLookup (memStore m i v) j = memLookup (memStore n i v) j := by
  rw [memLookup_memStore, memLookup_memStore]
  split
  · rfl
  · next hne => exact h hne

/-! ### MAIN's steps, taken and held -/

theorem exec_service_of_held {s : State} (h : ¬ ServiceEnabled s) : exec .service s = .fault (serviceHoldFault s) :=
  if_neg h

theorem serviceIfEnabled_of_held {s : State} (h : ¬ ServiceEnabled s) : serviceIfEnabled s = .next s :=
  if_neg h

/-- Where it is MAIN's turn to load, `CYCLE` is the load and then the service it leads to (R119). -/
theorem exec_cycle_of_ready (smp : SampleSet) {s : State} (h : SmpReady s) :
    exec (.cycle smp) s = serviceIfEnabled (loadSamples smp s) :=
  if_pos h

end Sys2Proof.Machine
end

section
/-! PROOF. Steps and events: every operation a step can run is made of four events (a received byte, a service, a sample
load, a reset), so what all events keep every step keeps. From it the invariants of 10_state.md R28 and the discipline of
the line log (R94, R55). -/

namespace Sys2Proof.Machine

open Laws.InputEncoding

/-! ### The step by its stimulus -/

theorem step_of_no_stimulus {s : State} (h : s.stim = []) : step s = mainTurn s := by
  simp [step, fetchAndRun, h]

theorem step_of_decoded {s : State} {st : Stim} {more left : List Stim} {i : Instr} (hs : s.stim = st :: more)
    (hd : decode s.cfg.slaveAddr st = .ok (i, left)) : step s = present i { s with stim := left ++ more } := by
  simp [step, fetchAndRun, hs, hd]

theorem step_of_rejected {s : State} {st : Stim} {more : List Stim} {r : Reject} (hs : s.stim = st :: more)
    (hd : decode s.cfg.slaveAddr st = .error r) : step s = .refused (refusalOf r) := by
  simp [step, fetchAndRun, hs, hd]

/-- The stimuli still to come guard nothing. -/
@[simp] theorem enabled_stim (s : State) (l : List Stim) (i : Instr) :
    Enabled { s with stim := l } i = Enabled s i := by
  cases i <;> rfl

/-- MAIN's own step is `SERVICE`, with its own hold (R116). -/
theorem mainTurn_eq_exec_service (s : State) : mainTurn s = exec .service s := by
  by_cases h : ServiceEnabled s
  · rw [mainTurn, if_pos h]
  · rw [mainTurn, if_neg h]
    exact (exec_service_of_held h).symm

/-! ### Events -/

/-- The operations a step can run, by the events they are made of: bytes and a service (the frame classes), bytes alone, a
reset, a load, a service, or a load and a service. -/
theorem presentable_cases {i : Instr} (hp : presentable i = true) :
    (∃ bs, ∀ s, exec i s = transact bs s) ∨ (∃ bs, ∀ s, exec i s = .next (receiveBytes bs s)) ∨
    i = .reset ∨ (∃ smp, i = .sampleLoad smp) ∨ i = .service ∨ ∃ smp, i = .cycle smp := by
  cases i with
  | rir | badCrc | unsupported | foreign | incomplete => exact .inl ⟨_, fun _ => rfl⟩
  | rxByte b => exact .inr (.inl ⟨[b], fun _ => rfl⟩)
  | req => exact .inr (.inl ⟨_, fun _ => rfl⟩)
  | reset => exact .inr (.inr (.inl rfl))
  | sampleLoad smp => exact .inr (.inr (.inr (.inl ⟨smp, rfl⟩)))
  | service => exact .inr (.inr (.inr (.inr (.inl rfl))))
  | cycle smp => exact .inr (.inr (.inr (.inr (.inr ⟨smp, rfl⟩))))
  | rsp | addrFilter | collect | crc16Init | crc16Update | crc16 | crcCheck | validate | respBuild | transmit | protect
  | driveOutputs | recover | rearm => cases hp

/-- Every event keeps `P`, and `P` does not speak of the stimuli still to come. -/
structure EventsKeep (P : State → Prop) : Prop where
  stim : ∀ (s : State) (l : List Stim), P s → P { s with stim := l }
  rxByte : ∀ (b : Byte) (s : State), P s → P (receiveByte b s)
  load : ∀ (smp : SampleSet) (s : State), P s → P (loadSamples smp s)
  service : ∀ s t : State, ServiceEnabled s → serviceBody s = .next t → P s → P t
  reset : ∀ s t : State, exec .reset s = .next t → P s → P t

namespace EventsKeep

variable {P : State → Prop} (h : EventsKeep P)
include h

theorem of_receiveBytes (bs : List Byte) {s : State} (hs : P s) : P (receiveBytes bs s) := by
  induction bs generalizing s with
  | nil => exact hs
  | cons b bs ih => exact ih (h.rxByte b s hs)

theorem of_serviceIfEnabled {s t : State} (hs : P s) (ht : serviceIfEnabled s = .next t) : P t := by
  rcases serviceIfEnabled_cases s with ⟨hen, he⟩ | ⟨_, he⟩ <;> rw [he] at ht
  · exact h.service s t hen ht hs
  · cases ht
    exact hs

/-- What every event keeps, every operation a step can run keeps. -/
theorem of_exec {i : Instr} (hp : presentable i = true) {s t : State} (hs : P s) (ht : exec i s = .next t) : P t := by
  rcases presentable_cases hp with ⟨bs, he⟩ | ⟨bs, he⟩ | rfl | ⟨smp, rfl⟩ | rfl | ⟨smp, rfl⟩
  · rw [he] at ht
    exact h.of_serviceIfEnabled (h.of_receiveBytes bs hs) ht
  · rw [he] at ht
    cases ht
    exact h.of_receiveBytes bs hs
  · exact h.reset s t ht hs
  · obtain ⟨_, rfl⟩ := (exec_sampleLoad_next_iff smp s t).1 ht
    exact h.load smp s hs
  · obtain ⟨hen, hb⟩ := (exec_service_next_iff s t).1 ht
    exact h.service s t hen hb hs
  · obtain ⟨_, hb⟩ := (exec_cycle_next_iff smp s t).1 ht
    exact h.of_serviceIfEnabled (h.load smp s hs) hb

/-- What every event keeps, every step keeps. -/
theorem of_step {s t : State} (hs : P s) (ht : step s = .next t) : P t := by
  rcases step_cases s with ⟨_, he⟩ | ⟨st, more, i, left, _, hd, _, he⟩ | ⟨st, more, i, left, _, _, _, he⟩ |
    ⟨st, more, r, _, _, he⟩ <;> rw [he] at ht
  · rw [mainTurn_eq_exec_service] at ht
    exact h.of_exec (i := .service) rfl hs ht
  · exact h.of_exec (decode_presentable hd) (h.stim s _ hs) ht
  · cases ht
    exact h.stim s _ hs
  · cases ht

end EventsKeep

/-! ### The invariants -/

/-- A listening block at the start of a cycle meets the invariants whatever its buffer and registers hold. -/
theorem blockInv_of_listening {s : State} (hl : Listening s) (hseq : s.seq = .sample)
    (hbuf : Memory.wf s.frameBuf = true) (hout : s.normalEn = !s.faultEn) (htx : s.txEn = false) : BlockInv s := by
  obtain ⟨hirq, hidle, hcnt⟩ := hl
  constructor <;> simp [hirq, hidle, hcnt, hseq, hbuf, hout, htx]

/-- One received byte keeps the invariants, in each of its four branches. -/
theorem blockInv_receiveByte (b : Byte) (s : State) (h : BlockInv s) : BlockInv (receiveByte b s) := by
  rcases receiveByte_cases b s with ⟨_, ha, he⟩ | ⟨_, _, he⟩ | ⟨hirq, ⟨hf, hn⟩, he⟩ | ⟨_, _, he⟩ <;> rw [he]
  case inl =>
    refine { h with listening := by simp, idleCount := nofun, mismatchCount := nofun, pendingCount := fun _ => by simp,
                    pendingAddress := fun _ => by simp [ha], collected := fun _ i hi => ?_,
                    bufferForm := memStore_wf b (by simp) h.bufferForm }
    obtain rfl : i = 0 := by simpa using hi
    simp
  case inr.inl =>
    exact { h with listening := by simp, idleCount := nofun, mismatchCount := fun _ => rfl, pendingCount := nofun,
                   pendingAddress := nofun, collected := nofun }
  case inr.inr.inl =>
    have hlow := (h.pendingCount hf).1
    have hcnt := byteCnt_add_one_toNat hn
    refine { h with idleCount := by simp [hf], mismatchCount := by simp [hf], pendingCount := fun _ => ?_,
                    pendingAddress := fun _ => ?_, collected := fun _ i hi => ?_,
                    bufferForm := memStore_wf b hn h.bufferForm }
    · rw [collectByte_byteCnt, hcnt]
      omega
    · rw [collectByte_frameBuf, memLookup_memStore_other _ _ (by omega)]
      exact h.pendingAddress hf
    · rw [collectByte_byteCnt, hcnt] at hi
      rw [collectByte_frameBuf, memLookup_memStore]
      split
      · rfl
      · exact h.collected hf i (by omega)
  case inr.inr.inr => exact h

theorem blockInv_loadSamples (smp : SampleSet) (s : State) (h : BlockInv s) : BlockInv (loadSamples smp s) :=
  { h with exclusive := rfl, judged := fun _ => protectDecision_iff_outsideThresholds s.cfg smp }

/-- From a state of the invariants a service that completes leaves the block listening (45_recovery.md section 3). -/
theorem serviceBody_listening {s t : State} (h : BlockInv s) (ht : serviceBody s = .next t) : Listening t := by
  rcases serviceBody_cases s with ⟨hf, he⟩ | ⟨_, he⟩ | ⟨_, f, _, he⟩ | ⟨_, _, he⟩ <;> rw [he] at ht <;> cases ht
  · exact ⟨h.listening.2 hf, hf, h.idleCount hf⟩
  · exact ⟨rfl, rfl, rfl⟩
  · exact serveVerdict_listening f s

/-- From a state of the invariants a service that is taken completes: the frame it reads has been collected. -/
theorem serviceBody_completes {s : State} (h : BlockInv s) (hen : ServiceEnabled s) : ∃ t, serviceBody s = .next t := by
  rcases serviceBody_cases s with ⟨_, he⟩ | ⟨_, he⟩ | ⟨_, f, _, he⟩ | ⟨hf, hr, _⟩
  · exact ⟨_, he⟩
  · exact ⟨_, he⟩
  · exact ⟨_, he⟩
  · have hn : reqLen ≤ s.byteCnt.toNat := not_lt.1 fun hlt => hen.2 ⟨hf, hlt⟩
    obtain ⟨f, hok⟩ := readFrame_of_written fun i hi => h.collected hf i (hi.trans_le hn)
    rw [hr] at hok
    cases hok

theorem blockInv_serviceBody (s t : State) (hen : ServiceEnabled s) (ht : serviceBody s = .next t) (h : BlockInv s) :
    BlockInv t := by
  have hlisten := serviceBody_listening h ht
  have hframe := serviceBody_frame ht
  obtain ⟨-, htx, -⟩ := serviceIfEnabled_frame ((if_pos hen).trans ht)
  refine blockInv_of_listening hlisten ?_ ?_ ?_ (htx.elim (·.trans h.lineReleased) id) <;> rw [hframe]
  · exact h.bufferForm
  · exact h.exclusive

theorem eventsKeep_blockInv : EventsKeep BlockInv where
  stim _ _ h := { h with }
  rxByte := blockInv_receiveByte
  load := blockInv_loadSamples
  service := blockInv_serviceBody
  reset s t ht h := by
    cases ht
    exact blockInv_of_listening ⟨rfl, rfl, rfl⟩ rfl h.bufferForm rfl rfl

/-! ### Completion -/

theorem serviceIfEnabled_completes {s : State} (h : BlockInv s) : ∃ t, serviceIfEnabled s = .next t := by
  rcases serviceIfEnabled_cases s with ⟨hen, he⟩ | ⟨_, he⟩ <;> rw [he]
  · exact serviceBody_completes h hen
  · exact ⟨s, rfl⟩

/-- From a state of the invariants every enabled operation a step can run completes. -/
theorem exec_completes {i : Instr} (hp : presentable i = true) {s : State} (h : BlockInv s) (hen : Enabled s i = true) :
    ∃ t, exec i s = .next t := by
  rcases presentable_cases hp with ⟨bs, he⟩ | ⟨bs, he⟩ | rfl | ⟨smp, rfl⟩ | rfl | ⟨smp, rfl⟩
  · rw [he]
    exact serviceIfEnabled_completes (eventsKeep_blockInv.of_receiveBytes bs h)
  · exact ⟨_, he s⟩
  · exact ⟨_, rfl⟩
  · exact ⟨_, exec_sampleLoad_of_ready smp (of_decide_eq_true hen)⟩
  · obtain ⟨t, ht⟩ := serviceBody_completes h (of_decide_eq_true hen)
    exact ⟨t, (exec_service_next_iff s t).2 ⟨of_decide_eq_true hen, ht⟩⟩
  · rw [exec_cycle_of_ready smp (of_decide_eq_true hen)]
    exact serviceIfEnabled_completes (blockInv_loadSamples smp s h)

/-! ### The line log -/

@[simp] theorem receiveByte_txLog (b : Byte) (s : State) : (receiveByte b s).txLog = s.txLog := by
  rw [receiveByte_frame]

theorem regsOf_take_length_le (n : Nat) (x : SampleSet) : ((regsOf x).take n).length ≤ regCount :=
  (List.length_take_le' n _).trans_eq (regsOf_length x)

/-- A service adds nothing, a receiver reset or one whole response to the line log. -/
theorem wireLog_serveVerdict (f : Frame) (s : State) (h : WireLog s.txLog) : WireLog (serveVerdict f s).txLog := by
  rcases serveVerdict_cases f s with ⟨_, hv⟩ | ⟨_, _, hv⟩ | ⟨_, _, hv⟩ <;> rw [hv]
  · exact h
  · exact .receiverReset _ h
  · exact .response _ _ _ h (regsOf_take_length_le _ _)

theorem wireLog_serviceBody (s t : State) (ht : serviceBody s = .next t) (h : WireLog s.txLog) : WireLog t.txLog := by
  rcases serviceBody_cases s with ⟨_, he⟩ | ⟨_, he⟩ | ⟨_, f, _, he⟩ | ⟨_, _, he⟩ <;> rw [he] at ht <;> cases ht
  · exact h
  · exact .receiverReset _ h
  · exact wireLog_serveVerdict f s h

theorem eventsKeep_wireLog : EventsKeep fun s => WireLog s.txLog where
  stim _ _ h := h
  rxByte b s h := (receiveByte_txLog b s).symm ▸ h
  load _ _ h := h
  service s t _ := wireLog_serviceBody s t
  reset _ _ ht _ := by
    cases ht
    exact .empty

/-! ### The statements -/

/-- Settles O50: every event keeps the invariants. -/
theorem everyStepKeepsTheInvariants : Obligations.EveryStepKeepsTheInvariants :=
  fun _ _ => eventsKeep_blockInv.of_step

/-- Settles O52: every event keeps the discipline of the line log; a response carries at most the seven registers. -/
theorem lineCarriesOnlyWholeResponses : Obligations.LineCarriesOnlyWholeResponses :=
  ⟨.empty, fun _ _ => eventsKeep_wireLog.of_step⟩

/-- Settles O49: after reset the block listens at the start of a cycle. -/
theorem resetStateMeetsTheInvariants : Obligations.ResetStateMeetsTheInvariants :=
  blockInv_of_listening ⟨rfl, rfl, rfl⟩ rfl rfl rfl rfl

/-- Settles O35: the service that is taken completes, and each of its branches ends listening. -/
theorem everyServiceTakenLeavesTheBlockListening : Obligations.EveryServiceTakenLeavesTheBlockListening := by
  intro s h hen
  obtain ⟨t, ht⟩ := serviceBody_completes h hen
  refine ⟨t, (exec_service_next_iff s t).2 ⟨hen, ht⟩, serviceBody_listening h ht, ?_⟩
  rw [serviceBody_frame ht]

/-- Settles O37: `CYCLE` goes on with the service of the loaded state, and a service writes neither the registers nor the
outputs. -/
theorem cycleIsSampleLoadThenService : Obligations.CycleIsSampleLoadThenService := by
  intro smp s hseq
  have hcycle := exec_cycle_of_ready smp hseq
  refine ⟨⟨_, exec_sampleLoad_of_ready smp hseq, fun hen => ?_, fun hheld => ?_⟩, fun h => ?_⟩
  · rw [hcycle, exec_service_of_enabled hen]
  · rw [hcycle, serviceIfEnabled_of_held hheld]
  · obtain ⟨u, hu⟩ := serviceIfEnabled_completes (blockInv_loadSamples smp s h)
    obtain ⟨hframe, -⟩ := serviceIfEnabled_frame hu
    refine ⟨u, hcycle.trans hu, ?_⟩
    rw [hframe]
    exact ⟨rfl, protectDecision_iff_outsideThresholds s.cfg smp, rfl⟩

/-- Settles O48: one event each; the receiver's branch is told by `frame_signal` under the invariants. -/
theorem controlFollowsTheTransitionTable : Obligations.ControlFollowsTheTransitionTable := by
  refine fun s h => ⟨⟨_, rfl, rfl⟩, fun b => ⟨_, exec_rxByte b s, ?_⟩,
    fun smp hseq => ⟨_, exec_sampleLoad_of_ready smp hseq, rfl⟩, fun hseq hfull => ?_⟩
  · rcases receiveByte_cases b s with ⟨hi, ha, he⟩ | ⟨hi, ha, he⟩ | ⟨hi, ⟨hf, hn⟩, he⟩ | ⟨hi, hc, he⟩ <;> rw [he]
    · simp [h.listening.1 hi, ha]
    · simp [h.listening.1 hi, ha]
    · have hne : s.byteCnt ≠ 8#4 := by rintro h8; simp [h8, reqLen] at hn
      simp [controlOf, hf, hne]
    · cases hf : s.frameSignal with
      | idle => simp [h.listening.2 hf] at hi
      | addressMismatch => rfl
      | framePending =>
        have hle := (h.pendingCount hf).2
        have hge : reqLen ≤ s.byteCnt.toNat := not_lt.1 fun hlt => hc ⟨hf, hlt⟩
        have h8 : s.byteCnt = 8#4 := BitVec.eq_of_toNat_eq (le_antisymm hle hge)
        rw [if_pos h8]
  · have hen : ServiceEnabled s := ⟨hseq, fun ⟨hf, hn⟩ => by simp [hfull hf, reqLen] at hn⟩
    obtain ⟨t, ht, ⟨_, hidle, hcnt⟩, hsample⟩ := everyServiceTakenLeavesTheBlockListening s h hen
    exact ⟨t, ht, by rw [controlOf, hidle, hcnt, hsample]⟩

/-- Settles O51: a decoded operation completes or passes; the one rejected stimulus is two events at once; with no stimulus
MAIN serves or names its hold. -/
theorem blockStopsOnlyWhenMisusedOrStarved : Obligations.BlockStopsOnlyWhenMisusedOrStarved := by
  intro s h
  cases hs : s.stim with
  | nil =>
    rw [step_of_no_stimulus hs, mainTurn_eq_exec_service]
    by_cases hen : ServiceEnabled s
    · exact .inl (exec_completes (i := .service) rfl h (decide_eq_true hen))
    · rw [exec_service_of_held hen, serviceHoldFault]
      cases hseq : s.seq with
      | sample => exact .inr (.inr (.inl ⟨rfl, rfl, rfl⟩))
      | service => exact .inr (.inr (.inr ⟨rfl, rfl, not_not.1 fun hp => hen ⟨hseq, hp⟩, rfl⟩))
  | cons st more =>
    cases hd : decode s.cfg.slaveAddr st with
    | ok p =>
      obtain ⟨i, left⟩ := p
      rw [step_of_decoded hs hd, present, enabled_stim]
      cases hen : Enabled s i with
      | true =>
        have hinv := eventsKeep_blockInv.stim s (left ++ more) h
        exact .inl (exec_completes (decode_presentable hd) hinv (by simpa using hen))
      | false => exact .inl ⟨_, rfl⟩
    | error r =>
      cases st with
      | edge ev b smp =>
        rcases decode_edge_cases s.cfg.slaveAddr ev b smp with ⟨_, he⟩ | he | he | he | ⟨rfl, _⟩
        case inr.inr.inr.inr => exact .inr (.inl ⟨b, smp, more, rfl, step_of_rejected hs hd⟩)
        all_goals rw [he] at hd; cases hd
      | line | cycle | req => cases hd

end Sys2Proof.Machine
end

section
/-! PROOF. Values the spec leaves unspecified (U2, D11): every event takes two states that agree up to them to states that
agree up to them, and so does every step. -/

namespace Sys2Proof.Machine

open Laws.InputEncoding

/-! ### Other values in the unspecified places -/

/-- `s` with another buffer and other sample registers. -/
def refill (m : Memory) (y : SampleSet) (s : State) : State := { s with frameBuf := m, x := y }

/-- `SameUpToUnspecified`, the second state written as a refill of the first. -/
theorem sameUpToUnspecified_iff (s t : State) :
    SameUpToUnspecified s t ↔ ∃ m y, t = refill m y s ∧
      (s.frameSignal = .framePending → ∀ i, i < s.byteCnt.toNat → memLookup s.frameBuf i = memLookup m i) ∧
      (s.seq = .service → s.x = y) := by
  constructor
  · exact fun h => ⟨t.frameBuf, t.x, h.rest, h.frame, h.samples⟩
  · rintro ⟨m, y, rfl, hframe, hsamples⟩
    exact ⟨rfl, hframe, hsamples⟩

/-- With no open transaction and no sample set of this cycle, the buffer and the registers are unspecified throughout. -/
theorem sameUpToUnspecified_of_idle {s : State} (m : Memory) (y : SampleSet) (hf : s.frameSignal = .idle)
    (hseq : s.seq = .sample) : SameUpToUnspecified s (refill m y s) :=
  ⟨rfl, by simp [hf], by simp [hseq]⟩

/-- The receiver reads neither: it only stores. -/
theorem SameUpToUnspecified.receiveByte {s t : State} (b : Byte) (h : SameUpToUnspecified s t) :
    SameUpToUnspecified (receiveByte b s) (receiveByte b t) := by
  obtain ⟨m, y, rfl, hframe, hsamples⟩ := (sameUpToUnspecified_iff s t).1 h
  rcases receiveByte_cases b s with ⟨hi, ha, he⟩ | ⟨hi, ha, he⟩ | ⟨hi, hc, he⟩ | ⟨hi, hc, he⟩ <;> rw [he]
  · rw [receiveByte_of_match (s := refill m y s) hi ha]
    refine ⟨rfl, fun _ i hlt => ?_, hsamples⟩
    obtain rfl : i = 0 := by simpa using hlt
    simp
  · rw [receiveByte_of_mismatch (s := refill m y s) hi ha]
    exact ⟨rfl, nofun, hsamples⟩
  · rw [receiveByte_of_collecting (s := refill m y s) b hi hc]
    refine ⟨rfl, fun _ i hlt => ?_, hsamples⟩
    rw [collectByte_byteCnt, byteCnt_add_one_toNat hc.2] at hlt
    exact memLookup_memStore_congr b fun hne => hframe hc.1 i (by omega)
  · rw [receiveByte_of_discarding (s := refill m y s) b hi hc]
    exact h

theorem SameUpToUnspecified.receiveBytes {s t : State} (bs : List Byte) (h : SameUpToUnspecified s t) :
    SameUpToUnspecified (receiveBytes bs s) (receiveBytes bs t) := by
  induction bs generalizing s t with
  | nil => exact h
  | cons b bs ih => exact ih (h.receiveByte b)

theorem SameUpToUnspecified.loadSamples {s t : State} (smp : SampleSet) (h : SameUpToUnspecified s t) :
    SameUpToUnspecified (loadSamples smp s) (loadSamples smp t) := by
  obtain ⟨m, y, rfl, hframe, _⟩ := (sameUpToUnspecified_iff s t).1 h
  exact ⟨rfl, hframe, fun _ => rfl⟩

/-- Of the buffer the service of a frame sees only the frame it was given. -/
theorem serveVerdict_refill (f : Frame) (m : Memory) (s : State) :
    serveVerdict f (refill m s.x s) = refill m s.x (serveVerdict f s) := by
  unfold serveVerdict
  split <;> rfl

/-- An enabled service reads the registers after the load and, of a frame, all eight bytes received. -/
theorem SameUpToUnspecified.serviceBody {s t s' : State} (h : SameUpToUnspecified s t) (hen : ServiceEnabled s)
    (hs : serviceBody s = .next s') : ∃ t', serviceBody t = .next t' ∧ SameUpToUnspecified s' t' := by
  obtain ⟨m, y, rfl, hframe, hsamples⟩ := (sameUpToUnspecified_iff s t).1 h
  obtain rfl := hsamples hen.1
  rcases serviceBody_cases s with ⟨hf, he⟩ | ⟨hf, he⟩ | ⟨hf, f, hr, he⟩ | ⟨_, _, he⟩ <;> rw [he] at hs <;> cases hs
  · refine ⟨_, ?_, sameUpToUnspecified_of_idle m s.x hf rfl⟩
    simp only [Machine.serviceBody, refill, hf]
  · refine ⟨_, ?_, sameUpToUnspecified_of_idle m s.x rfl rfl⟩
    simp only [Machine.serviceBody, refill, hf]
    rfl
  · have hread : readFrame m = .ok f := by
      have hn : reqLen ≤ s.byteCnt.toNat := not_lt.1 fun hlt => hen.2 ⟨hf, hlt⟩
      rw [← hr]
      exact (readFrame_congr fun i hi => hframe hf i (hi.trans_le hn)).symm
    obtain ⟨_, hidle, _⟩ := serveVerdict_listening f s
    refine ⟨_, ?_, sameUpToUnspecified_of_idle m s.x hidle rfl⟩
    have hbody : Machine.serviceBody (refill m s.x s) =
        .next { serveVerdict f (refill m s.x s) with seq := .sample } := by
      simp only [Machine.serviceBody, refill, hf, hread]
    rw [hbody, serveVerdict_refill]
    rfl

/-- What guards a step is the same on both sides. -/
theorem SameUpToUnspecified.serviceEnabled_iff {s t : State} (h : SameUpToUnspecified s t) :
    ServiceEnabled t ↔ ServiceEnabled s := by
  rw [h.rest]

theorem SameUpToUnspecified.enabled {s t : State} (h : SameUpToUnspecified s t) (i : Instr) :
    Enabled t i = Enabled s i := by
  rw [h.rest]
  cases i <;> rfl

theorem SameUpToUnspecified.serviceIfEnabled {s t s' : State} (h : SameUpToUnspecified s t)
    (hs : serviceIfEnabled s = .next s') : ∃ t', serviceIfEnabled t = .next t' ∧ SameUpToUnspecified s' t' := by
  rcases serviceIfEnabled_cases s with ⟨hen, he⟩ | ⟨hheld, he⟩ <;> rw [he] at hs
  · rw [Machine.serviceIfEnabled, if_pos (h.serviceEnabled_iff.2 hen)]
    exact h.serviceBody hen hs
  · cases hs
    exact ⟨t, serviceIfEnabled_of_held (mt h.serviceEnabled_iff.1 hheld), h⟩

/-! ### Operations and steps -/

/-- Every operation a step can run takes agreeing states to agreeing states. -/
theorem SameUpToUnspecified.exec {s t s' : State} {i : Instr} (h : SameUpToUnspecified s t) (hp : presentable i = true)
    (hs : exec i s = .next s') : ∃ t', exec i t = .next t' ∧ SameUpToUnspecified s' t' := by
  have hseq : t.seq = s.seq := by rw [h.rest]
  rcases presentable_cases hp with ⟨bs, he⟩ | ⟨bs, he⟩ | rfl | ⟨smp, rfl⟩ | rfl | ⟨smp, rfl⟩
  · rw [he] at hs ⊢
    exact (h.receiveBytes bs).serviceIfEnabled hs
  · rw [he] at hs ⊢
    cases hs
    exact ⟨_, rfl, h.receiveBytes bs⟩
  · cases hs
    obtain ⟨m, y, rfl, _⟩ := (sameUpToUnspecified_iff s t).1 h
    exact ⟨_, rfl, sameUpToUnspecified_of_idle m y rfl rfl⟩
  · obtain ⟨hready, rfl⟩ := (exec_sampleLoad_next_iff smp s s').1 hs
    exact ⟨_, exec_sampleLoad_of_ready smp (hseq.trans hready), h.loadSamples smp⟩
  · obtain ⟨hen, hb⟩ := (exec_service_next_iff s s').1 hs
    obtain ⟨t', ht, h'⟩ := h.serviceBody hen hb
    exact ⟨t', (exec_service_next_iff t t').2 ⟨h.serviceEnabled_iff.2 hen, ht⟩, h'⟩
  · obtain ⟨hready, hb⟩ := (exec_cycle_next_iff smp s s').1 hs
    rw [exec_cycle_of_ready smp (hseq.trans hready)]
    exact (h.loadSamples smp).serviceIfEnabled hb

theorem SameUpToUnspecified.stim {s t : State} (h : SameUpToUnspecified s t) (l : List Stim) :
    SameUpToUnspecified { s with stim := l } { t with stim := l } := by
  obtain ⟨m, y, rfl, hframe, hsamples⟩ := (sameUpToUnspecified_iff s t).1 h
  exact ⟨rfl, hframe, hsamples⟩

/-! ### The statement -/

/-- Settles O53: both blocks decode the same stimulus, which is enabled on both sides or on neither. -/
theorem unspecifiedValuesNeverShow : Obligations.UnspecifiedValuesNeverShow := by
  intro s t s' h hs
  have hstim : t.stim = s.stim := by rw [h.rest]
  have hcfg : t.cfg = s.cfg := by rw [h.rest]
  rcases step_cases s with ⟨hnil, he⟩ | ⟨st, more, i, left, hst, hd, hen, he⟩ | ⟨st, more, i, left, hst, hd, hen, he⟩ |
    ⟨st, more, r, _, _, he⟩ <;> rw [he] at hs
  · rw [step_of_no_stimulus (hstim.trans hnil), mainTurn_eq_exec_service]
    rw [mainTurn_eq_exec_service] at hs
    exact h.exec (i := .service) rfl hs
  · rw [step_of_decoded (hstim.trans hst) (hcfg ▸ hd), present, enabled_stim, h.enabled, if_pos hen]
    exact (h.stim (left ++ more)).exec (decode_presentable hd) hs
  · cases hs
    rw [step_of_decoded (hstim.trans hst) (hcfg ▸ hd), present, enabled_stim, h.enabled, if_neg (by simp [hen])]
    exact ⟨_, rfl, h.stim (left ++ more)⟩
  · cases hs

end Sys2Proof.Machine
end

section
/-! PROOF. The writers of 10_state.md section 1 (R13, R27): what every writer an operation runs keeps, the operation keeps.
From it what no operation changes, what every operation keeps, and the writer table itself. -/

namespace Sys2Proof.Machine

/-! ### The address filter, field by field -/

@[simp] theorem filterByte_x (b : Byte) (s : State) : (filterByte b s).x = s.x := by rw [filterByte_frame]
@[simp] theorem filterByte_normalEn (b : Byte) (s : State) : (filterByte b s).normalEn = s.normalEn := by
  rw [filterByte_frame]
@[simp] theorem filterByte_faultEn (b : Byte) (s : State) : (filterByte b s).faultEn = s.faultEn := by
  rw [filterByte_frame]
@[simp] theorem filterByte_txEn (b : Byte) (s : State) : (filterByte b s).txEn = s.txEn := by rw [filterByte_frame]
@[simp] theorem filterByte_seq (b : Byte) (s : State) : (filterByte b s).seq = s.seq := by rw [filterByte_frame]
@[simp] theorem filterByte_txLog (b : Byte) (s : State) : (filterByte b s).txLog = s.txLog := by rw [filterByte_frame]
@[simp] theorem filterByte_svcLog (b : Byte) (s : State) : (filterByte b s).svcLog = s.svcLog := by
  rw [filterByte_frame]
@[simp] theorem filterByte_cfg (b : Byte) (s : State) : (filterByte b s).cfg = s.cfg := by rw [filterByte_frame]
@[simp] theorem filterByte_stim (b : Byte) (s : State) : (filterByte b s).stim = s.stim := by rw [filterByte_frame]
@[simp] theorem filterByte_result (b : Byte) (s : State) : (filterByte b s).result = s.result := by
  rw [filterByte_frame]

theorem filterByte_frameBuf_wf (b : Byte) {s : State} (h : Memory.wf s.frameBuf = true) :
    Memory.wf (filterByte b s).frameBuf = true := by
  unfold filterByte
  split
  · exact memStore_wf b (by decide) h
  · exact h

/-! ### Writers -/

/-- The writes of this writer keep `P`. The service's own are the record of its outcome and the hand-over to the next sample
load, the sample load's own the registers and the hand-over to the service (R13). -/
def Writer.Keeps (P : State → Prop) : Writer → Prop
  | .addrFilter => ∀ b s, P s → P (filterByte b s)
  | .collect => ∀ b s, s.byteCnt.toNat < reqLen → P s → P (collectByte b s)
  | .rearm => ∀ s, P s → P (rearmReceiver s)
  | .recover => ∀ s, P s → P (recoverReceiver s)
  | .reset => ∀ s t, execReset s = .next t → P s → P t
  | .sampleLoad => ∀ smp s, P s → P { s with x := smp, seq := .service }
  | .driveOutputs => ∀ f s, P s → P (driveProtection f s)
  | .transmit => ∀ r s, P s → P (transmitBytes r s)
  | .service => (∀ e s, P s → P (raiseCondition e s)) ∧ ∀ s, P s → P { s with seq := .sample }
  | .function => ∀ r s, P s → P (giveResult r s)

section Composition

variable {P : State → Prop}

theorem receiveByte_keeps (h : ∀ w ∈ byteWriters, w.Keeps P) (b : Byte) {s : State} (hs : P s) :
    P (receiveByte b s) := by
  have hfilter := h .addrFilter (by decide)
  have hcollect := h .collect (by decide)
  unfold receiveByte
  split
  · exact hfilter b s hs
  · split
    · next hc => exact hcollect b s hc.2 hs
    · exact hs

theorem receiveBytes_keeps (h : ∀ w ∈ byteWriters, w.Keeps P) (bs : List Byte) {s : State} (hs : P s) :
    P (receiveBytes bs s) := by
  induction bs generalizing s with
  | nil => exact hs
  | cons b bs ih => exact ih (receiveByte_keeps h b hs)

theorem loadSamples_keeps (h : ∀ w ∈ loadWriters, w.Keeps P) (smp : SampleSet) {s : State} (hs : P s) :
    P (loadSamples smp s) :=
  h .driveOutputs (by decide) (protectDecision s.cfg smp) _ (h .sampleLoad (by decide) smp s hs)

theorem serviceBody_keeps (h : ∀ w ∈ serviceWriters, w.Keeps P) {s t : State} (ht : serviceBody s = .next t)
    (hs : P s) : P t := by
  obtain ⟨hraise, hseq⟩ := h .service (by decide)
  have hrecover := h .recover (by decide)
  have hrearm := h .rearm (by decide)
  have htransmit := h .transmit (by decide)
  rcases serviceBody_cases s with ⟨_, he⟩ | ⟨_, he⟩ | ⟨_, f, _, he⟩ | ⟨_, _, he⟩ <;> rw [he] at ht <;> cases ht
  · exact hseq _ hs
  · exact hseq _ (hrecover _ (hraise _ _ hs))
  · refine hseq _ ?_
    rcases serveVerdict_cases f s with ⟨_, hv⟩ | ⟨_, _, hv⟩ | ⟨_, _, hv⟩ <;> rw [hv]
    · exact hrearm _ (hraise _ _ hs)
    · exact hrecover _ (hraise _ _ hs)
    · exact hrearm _ (hraise _ _ (htransmit _ _ hs))

theorem serviceIfEnabled_keeps (h : ∀ w ∈ serviceWriters, w.Keeps P) {s t : State} (ht : serviceIfEnabled s = .next t)
    (hs : P s) : P t := by
  rcases serviceIfEnabled_cases s with ⟨_, he⟩ | ⟨_, he⟩ <;> rw [he] at ht
  · exact serviceBody_keeps h ht hs
  · cases ht
    exact hs

theorem transact_keeps (h : ∀ w ∈ byteWriters ++ serviceWriters, w.Keeps P) {bs : List Byte} {s t : State}
    (ht : transact bs s = .next t) (hs : P s) : P t := by
  obtain ⟨hbytes, hservice⟩ := List.forall_mem_append.1 h
  exact serviceIfEnabled_keeps hservice ht (receiveBytes_keeps hbytes bs hs)

/-- What every writer an operation runs keeps, the operation keeps. -/
theorem exec_keeps {i : Instr} (h : ∀ w ∈ writersIn i, w.Keeps P) {s t : State} (ht : exec i s = .next t) (hs : P s) :
    P t := by
  cases i with
  | rir | badCrc | unsupported | foreign | incomplete => exact transact_keeps h ht hs
  | reset => exact h .reset (by simp [writersIn]) s t ht hs
  | rxByte b => cases ht; exact receiveByte_keeps h b hs
  | req => cases ht; exact receiveBytes_keeps h _ hs
  | sampleLoad smp =>
    obtain ⟨_, rfl⟩ := (exec_sampleLoad_next_iff smp s t).1 ht
    exact loadSamples_keeps h smp hs
  | service => exact serviceBody_keeps h ((exec_service_next_iff s t).1 ht).2 hs
  | cycle smp =>
    obtain ⟨hload, hservice⟩ := List.forall_mem_append.1 h
    exact serviceIfEnabled_keeps hservice ((exec_cycle_next_iff smp s t).1 ht).2 (loadSamples_keeps hload smp hs)
  | addrFilter b => cases ht; exact h .addrFilter (by simp [writersIn]) b s hs
  | collect b =>
    obtain ⟨hlt, rfl⟩ := (exec_collect_next_iff b s t).1 ht
    exact h .collect (by simp [writersIn]) b s hlt hs
  | rsp | transmit => cases ht; exact h .transmit (by simp [writersIn]) _ s hs
  | driveOutputs f => cases ht; exact h .driveOutputs (by simp [writersIn]) f s hs
  | recover => cases ht; exact h .recover (by simp [writersIn]) s hs
  | rearm => cases ht; exact h .rearm (by simp [writersIn]) s hs
  | crc16Init | crc16Update | crc16 | crcCheck | validate | respBuild | protect =>
    cases ht; exact h .function (by simp [writersIn]) _ s hs

end Composition

/-! ### The writers of each element -/

/-- No write of this writer changes the element `e`. -/
def Writer.Leaves {α : Type} (e : State → α) (w : Writer) : Prop := ∀ v, w.Keeps fun u => e u = v

/-- An operation that runs none of the listed writers leaves an element as it is, if every other writer does. -/
theorem exec_leaves {α : Type} {e : State → α} {listed : List Writer} (hw : ∀ w, w ∉ listed → w.Leaves e) {i : Instr}
    {s t : State} (h : exec i s = .next t) (hnone : RunsNone i listed) : e t = e s :=
  exec_keeps (P := fun u => e u = e s) (fun w hmem => hw w (hnone w hmem) (e s)) h rfl

theorem runsNone_nil (i : Instr) : RunsNone i [] := fun _ _ => List.not_mem_nil

theorem leaves_frameSignal (w : Writer) (h : w ∉ [.addrFilter, .rearm, .recover, .reset]) :
    w.Leaves State.frameSignal := by
  cases w <;> simp [Writer.Leaves, Writer.Keeps] at h ⊢

theorem leaves_rxIrqEn (w : Writer) (h : w ∉ [.addrFilter, .rearm, .recover, .reset]) : w.Leaves State.rxIrqEn := by
  cases w <;> simp [Writer.Leaves, Writer.Keeps] at h ⊢

theorem leaves_frameBuf (w : Writer) (h : w ∉ [.addrFilter, .collect]) : w.Leaves State.frameBuf := by
  cases w <;> simp [Writer.Leaves, Writer.Keeps, execReset] at h ⊢

theorem leaves_byteCnt (w : Writer) (h : w ∉ [.addrFilter, .collect, .rearm, .recover, .reset]) :
    w.Leaves State.byteCnt := by
  cases w <;> simp [Writer.Leaves, Writer.Keeps] at h ⊢

theorem leaves_x (w : Writer) (h : w ∉ [.sampleLoad]) : w.Leaves State.x := by
  cases w <;> simp [Writer.Leaves, Writer.Keeps, execReset] at h ⊢

theorem leaves_normalEn (w : Writer) (h : w ∉ [.driveOutputs, .reset]) : w.Leaves State.normalEn := by
  cases w <;> simp [Writer.Leaves, Writer.Keeps] at h ⊢

theorem leaves_faultEn (w : Writer) (h : w ∉ [.driveOutputs, .reset]) : w.Leaves State.faultEn := by
  cases w <;> simp [Writer.Leaves, Writer.Keeps] at h ⊢

theorem leaves_txEn (w : Writer) (h : w ∉ [.transmit, .reset]) : w.Leaves State.txEn := by
  cases w <;> simp [Writer.Leaves, Writer.Keeps] at h ⊢

theorem leaves_seq (w : Writer) (h : w ∉ [.sampleLoad, .service, .reset]) : w.Leaves State.seq := by
  cases w <;> simp [Writer.Leaves, Writer.Keeps] at h ⊢

theorem leaves_txLog (w : Writer) (h : w ∉ [.transmit, .recover, .reset]) : w.Leaves State.txLog := by
  cases w <;> simp [Writer.Leaves, Writer.Keeps] at h ⊢

theorem leaves_svcLog (w : Writer) (h : w ∉ [.service, .reset]) : w.Leaves State.svcLog := by
  cases w <;> simp [Writer.Leaves, Writer.Keeps] at h ⊢

theorem leaves_result (w : Writer) (h : w ∉ [.function, .reset]) : w.Leaves State.result := by
  cases w <;> simp [Writer.Leaves, Writer.Keeps] at h ⊢

theorem leaves_cfg (w : Writer) : w.Leaves State.cfg := by
  cases w <;> simp [Writer.Leaves, Writer.Keeps, execReset]

theorem leaves_stim (w : Writer) : w.Leaves State.stim := by
  cases w <;> simp [Writer.Leaves, Writer.Keeps, execReset]

/-! ### What every writer keeps -/

/-- Only the address filter and the collection of a byte store into the buffer, at index 0 and below 8. -/
theorem keeps_bufferForm (w : Writer) : w.Keeps fun u => Memory.wf u.frameBuf = true := by
  cases w with
  | addrFilter => exact fun b _ => filterByte_frameBuf_wf b
  | collect => exact fun b _ hlt => memStore_wf b hlt
  | reset => simp [Writer.Keeps, execReset]
  | service => exact ⟨fun _ _ h => h, fun _ h => h⟩
  | rearm | recover => exact fun _ h => h
  | sampleLoad | driveOutputs | transmit | function => exact fun _ _ h => h

/-- Both outputs are driven together, by a sample load and by a reset. -/
theorem keeps_exclusive (w : Writer) : w.Keeps fun u => u.normalEn = !u.faultEn := by
  cases w with
  | driveOutputs => exact fun _ _ _ => rfl
  | reset => simp [Writer.Keeps, execReset]
  | addrFilter => simp [Writer.Keeps]
  | service => exact ⟨fun _ _ h => h, fun _ h => h⟩
  | collect => exact fun _ _ _ h => h
  | rearm | recover => exact fun _ h => h
  | sampleLoad | transmit | function => exact fun _ _ h => h

/-- Transmit-enable is only ever released. -/
theorem keeps_txEn_or_released (v : Bool) (w : Writer) : w.Keeps fun u => u.txEn = v ∨ u.txEn = false := by
  cases w with
  | transmit => exact fun _ _ _ => .inr rfl
  | reset => simp [Writer.Keeps, execReset]
  | addrFilter => simp [Writer.Keeps]
  | service => exact ⟨fun _ _ h => h, fun _ h => h⟩
  | collect => exact fun _ _ _ h => h
  | rearm | recover => exact fun _ h => h
  | sampleLoad | driveOutputs | function => exact fun _ _ h => h

/-- Every writer but a reset only appends to the histories. -/
theorem keeps_histories (txs : List TxEvent) (svcs : List SvcEvent) (w : Writer) (h : w ≠ .reset) :
    w.Keeps fun u => txs <+: u.txLog ∧ svcs <+: u.svcLog := by
  cases w with
  | recover => exact fun _ ⟨htx, hsvc⟩ => ⟨htx.trans (List.prefix_append _ _), hsvc⟩
  | transmit => exact fun _ _ ⟨htx, hsvc⟩ => ⟨htx.trans (List.prefix_append _ _), hsvc⟩
  | service => exact ⟨fun _ _ ⟨htx, hsvc⟩ => ⟨htx, hsvc.trans (List.prefix_append _ _)⟩, fun _ h => h⟩
  | reset => exact absurd rfl h
  | addrFilter => simp +contextual [Writer.Keeps]
  | collect => exact fun _ _ _ h => h
  | rearm => exact fun _ h => h
  | sampleLoad | driveOutputs | function => exact fun _ _ h => h

theorem reset_notMem_writersIn {i : Instr} (h : i ≠ .reset) : .reset ∉ writersIn i := by
  cases i with
  | reset => exact absurd rfl h
  | _ => simp [writersIn, byteWriters, serviceWriters, loadWriters]

/-! ### The statements -/

/-- Settles O54: neither the configuration nor the queue has a writer. -/
theorem configurationIsFixed : Obligations.ConfigurationIsFixed := fun i _ _ h =>
  ⟨exec_leaves (listed := []) (fun w _ => leaves_cfg w) h (runsNone_nil i),
    exec_leaves (listed := []) (fun w _ => leaves_stim w) h (runsNone_nil i)⟩

/-- Settles O55: every writer keeps the canonical form. -/
theorem bufferKeepsItsCanonicalForm : Obligations.BufferKeepsItsCanonicalForm := fun _ _ _ hwf h =>
  exec_keeps (P := fun u => Memory.wf u.frameBuf = true) (fun w _ => keeps_bufferForm w) h hwf

/-- Settles O56: every writer keeps the outputs complementary. -/
theorem outputsStayExclusive : Obligations.OutputsStayExclusive := fun _ _ _ hout h =>
  exec_keeps (P := fun u => u.normalEn = !u.faultEn) (fun w _ => keeps_exclusive w) h hout

/-- Settles O57: each clause from the writers of its element. -/
theorem onlyTheListedWritersChangeAnElement : Obligations.OnlyTheListedWritersChangeAnElement := by
  intro i s t h
  refine ⟨fun hn => ⟨exec_leaves leaves_frameSignal h hn, exec_leaves leaves_rxIrqEn h hn⟩,
    exec_leaves leaves_frameBuf h, exec_leaves leaves_byteCnt h, exec_leaves leaves_x h,
    fun hn => ⟨exec_leaves leaves_normalEn h hn, exec_leaves leaves_faultEn h hn⟩,
    exec_leaves leaves_txEn h, exec_leaves leaves_seq h, exec_leaves leaves_txLog h, exec_leaves leaves_svcLog h,
    exec_leaves leaves_result h, ?_, fun hi => ?_⟩
  · exact exec_keeps (P := fun u => u.txEn = s.txEn ∨ u.txEn = false) (fun w _ => keeps_txEn_or_released _ w) h
      (.inl rfl)
  · refine exec_keeps (P := fun u => s.txLog <+: u.txLog ∧ s.svcLog <+: u.svcLog) (fun w hw => ?_) h
      ⟨List.prefix_rfl, List.prefix_rfl⟩
    exact keeps_histories _ _ w fun hr => reset_notMem_writersIn hi (hr ▸ hw)

end Sys2Proof.Machine
end

section
/-! PROOF. The CRC engine (41_crc16.md): the update as a loop and in byte-table form (R75), the residue law (section 6), and
what a single changed byte does. -/

namespace Sys2Proof.Machine

/-! ### The shift is injective -/

/-- A register shifted to zero was zero: a 1 shifted out sets the top bit. -/
theorem eq_zero_of_crcShift_eq_zero {c : Half} (h : crcShift c = 0#16) : c = 0#16 := by
  unfold crcShift at h
  split at h
  · have htop := congrArg (·.getLsbD 15) h
    simp [crcPoly] at htop
  · next hlsb =>
    refine BitVec.eq_of_getLsbD_eq fun i hi => ?_
    cases i with
    | zero => simpa using hlsb
    | succ i =>
      have hbit := congrArg (·.getLsbD i) h
      simpa [Nat.add_comm] using hbit

theorem crcShift_injective : Function.Injective crcShift := by
  intro a b h
  have hzero : crcShift (a ^^^ b) = 0#16 := by rw [crcShift_xor, h, BitVec.xor_self]
  exact BitVec.xor_eq_zero_iff.1 (eq_zero_of_crcShift_eq_zero hzero)

theorem crcShiftN_injective (n : Nat) : Function.Injective (crcShiftN n) := by
  induction n with
  | zero => exact Function.injective_id
  | succ n ih => exact ih.comp crcShift_injective

theorem crcShiftN_eq_iterate (n : Nat) (c : Half) : crcShiftN n c = crcShift^[n] c := by
  induction n generalizing c with
  | zero => rfl
  | succ n ih => rw [crcShiftN, ih, Function.iterate_succ_apply]

/-! ### The update -/

theorem setWidth_injective : Function.Injective fun b : Byte => b.setWidth 16 := by
  intro a b h
  simpa using congrArg (BitVec.setWidth 8) h

/-- Different bytes lead apart from the same register. -/
theorem crcUpdate_byte_injective (c : Half) : Function.Injective (crcUpdate c) :=
  fun _ _ h => setWidth_injective ((BitVec.xor_right_inj c).1 (crcShiftN_injective 8 h))

/-- Different registers stay apart whatever byte follows. -/
theorem crcUpdate_register_injective (b : Byte) : Function.Injective (crcUpdate · b) :=
  fun _ _ h => (BitVec.xor_left_inj (b.setWidth 16)).1 (crcShiftN_injective 8 h)

theorem foldl_crcUpdate_injective (m : List Byte) : Function.Injective (m.foldl crcUpdate ·) := by
  induction m with
  | nil => exact Function.injective_id
  | cons b m ih => exact ih.comp (crcUpdate_register_injective b)

/-- A half with its high byte taken apart from its low byte. -/
theorem eq_joinBytes_xor_loByte (c : Half) : c = joinBytes (hiByte c) 0#8 ^^^ (loByte c).setWidth 16 := by
  refine BitVec.eq_of_getLsbD_eq fun i hi => ?_
  rw [BitVec.getLsbD_xor, getLsbD_joinBytes]
  by_cases h : i < 8
  · simp [h, hi, loByte]
  · simp [h, hi, hiByte, loByte, show i - 8 < 8 by omega, show 8 + (i - 8) = i by omega]

theorem hiByte_setWidth (c : Half) : (hiByte c).setWidth 16 = c >>> 8 := by
  refine BitVec.eq_of_toNat_eq ?_
  rw [BitVec.toNat_setWidth, hiByte_toNat, BitVec.toNat_ushiftRight, Nat.shiftRight_eq_div_pow]
  have := c.isLt
  omega

theorem loByte_eq_setWidth (c : Half) : loByte c = c.setWidth 8 := by
  ext i hi
  simp [loByte]

/-- The byte-table form of the update: the high byte moves down unchanged, the low byte meets the data. -/
theorem crcUpdate_eq_table (c : Half) (b : Byte) :
    crcUpdate c b = (hiByte c).setWidth 16 ^^^ crcUpdate 0#16 (loByte c ^^^ b) := by
  have hsplit : c ^^^ b.setWidth 16 = joinBytes (hiByte c) 0#8 ^^^ (0#16 ^^^ (loByte c ^^^ b).setWidth 16) := by
    conv_lhs => rw [eq_joinBytes_xor_loByte c]
    rw [BitVec.xor_assoc, BitVec.zero_xor, BitVec.setWidth_xor]
  rw [crcUpdate, hsplit, crcShiftN_xor, crcShiftN_highByte]
  rfl

/-! ### The residue -/

/-- A byte that equals the whole register clears it. -/
theorem crcUpdate_setWidth_self (b : Byte) : crcUpdate (b.setWidth 16) b = 0#16 := by
  rw [crcUpdate, BitVec.xor_self]
  rfl

/-- The byte that equals the low half of the register leaves its high byte. -/
theorem crcUpdate_loByte (c : Half) : crcUpdate c (loByte c) = (hiByte c).setWidth 16 := by
  rw [crcUpdate_eq_table, BitVec.xor_self, show crcUpdate 0#16 0#8 = 0#16 from crcUpdate_setWidth_self 0#8,
    BitVec.xor_zero]

/-- Two more bytes clear the register exactly if they are its low and its high half. -/
theorem crcUpdate_crcUpdate_eq_zero_iff (c : Half) (lo hi : Byte) :
    crcUpdate (crcUpdate c lo) hi = 0#16 ↔ c = joinBytes hi lo := by
  have hclears : crcUpdate (crcUpdate (joinBytes hi lo) lo) hi = 0#16 := by
    have hlo := crcUpdate_loByte (joinBytes hi lo)
    rw [loByte_joinBytes, hiByte_joinBytes] at hlo
    rw [hlo, crcUpdate_setWidth_self]
  constructor
  · exact fun h => foldl_crcUpdate_injective [lo, hi] (h.trans hclears.symm)
  · rintro rfl
    exact hclears

/-- The residue law for a sequence and any two bytes behind it (41_crc16.md section 6). -/
theorem crcOf_append_pair_eq_zero_iff (m : List Byte) (lo hi : Byte) :
    crcOf (m ++ [lo, hi]) = 0#16 ↔ crcOf m = joinBytes hi lo := by
  rw [crcOf_append]
  exact crcUpdate_crcUpdate_eq_zero_iff (crcOf m) lo hi

theorem crcOf_appendCrc (m : List Byte) : crcOf (appendCrc m) = 0#16 :=
  (crcOf_append_pair_eq_zero_iff m _ _).2 (joinBytes_hi_lo _).symm

/-! ### The statements -/

/-- Settles O15: the model's recursion is the iterate of its shift. -/
theorem crcUpdateIsEightConditionalShifts : Obligations.CrcUpdateIsEightConditionalShifts :=
  fun _ _ => crcShiftN_eq_iterate 8 _

/-- Settles O16: linearity splits off the high byte, which eight shifts only move down. -/
theorem crcUpdateHasTheByteTableForm : Obligations.CrcUpdateHasTheByteTableForm := by
  intro c b
  rw [crcUpdate_eq_table, hiByte_setWidth, loByte_eq_setWidth]

/-- Settles O17: the CRC of a sequence and one more byte. -/
theorem crcFoldsTheBytesInOrder : Obligations.CrcFoldsTheBytesInOrder := fun m b => crcOf_append m [b]

/-- Settles O19: the two bytes appended are the halves of the register they meet. -/
theorem appendedCrcLeavesZeroResidue : Obligations.AppendedCrcLeavesZeroResidue := crcOf_appendCrc

/-- Settles O20: the residue is zero exactly if the last two bytes are the CRC of the first six. -/
theorem crcCheckIsZeroResidueOverTheWholeFrame : Obligations.CrcCheckIsZeroResidueOverTheWholeFrame := fun f =>
  (crcCheck_iff_crcRx f).trans (crcOf_append_pair_eq_zero_iff (frameHead f) f.crcLo f.crcHi).symm

/-- Settles O21: the update is injective in the byte, and then in the register for every byte that follows. -/
theorem crcDetectsAnySingleByteChange : Obligations.CrcDetectsAnySingleByteChange := by
  intro before after b b' hne heq
  rw [crcOf_append, crcOf_append] at heq
  exact hne (crcUpdate_byte_injective _ (foldl_crcUpdate_injective after heq))

end Sys2Proof.Machine
end

section
/-! PROOF. The operations one by one: reset, the receiver's filter, the function-type operations, transmission, the outputs,
the recovery, and the service that has no frame or is held. -/

namespace Sys2Proof.Machine

/-! ### Rules of the operations -/

theorem exec_sampleLoad_of_service (smp : SampleSet) {s : State} (h : s.seq = .service) :
    exec (.sampleLoad smp) s = .fault .sampleLoadHeld :=
  if_neg (by simp [h])

theorem exec_cycle_of_service (smp : SampleSet) {s : State} (h : s.seq = .service) :
    exec (.cycle smp) s = .fault .sampleLoadHeld :=
  if_neg (by simp [h])

theorem exec_collect_of_full (b : Byte) {s : State} (h : 8 ≤ s.byteCnt.toNat) :
    exec (.collect b) s = .fault .frameIndexOutOfRange :=
  if_neg (not_lt.2 h)

theorem exec_collect_of_room (b : Byte) {s : State} (h : s.byteCnt.toNat < 8) :
    exec (.collect b) s = .next (collectByte b s) :=
  if_pos h

/-- Before the sample load of the cycle the hold is named first (R117). -/
theorem serviceHoldFault_of_sample {s : State} (h : s.seq = .sample) : serviceHoldFault s = .awaitingSampleSet :=
  if_pos h

theorem serviceHoldFault_of_service {s : State} (h : s.seq = .service) :
    serviceHoldFault s = .serviceHeldPartialFrame :=
  if_neg (by simp [h])

/-- Without an open transaction nothing holds the service back. -/
theorem exec_service_of_no_frame {s : State} (hseq : s.seq = .service) (hf : s.frameSignal ≠ .framePending) :
    exec .service s = serviceBody s :=
  if_pos ⟨hseq, fun h => hf h.1⟩

theorem respCount_requested (q : Half) : respCount .requested q = q.toNat := rfl

theorem respCount_fixed7 (q : Half) : respCount .fixed7 q = 7 := rfl

/-- A response of all seven registers (R54, R96). -/
theorem respBuild_seven (a : Byte) (x : SampleSet) : respBuild a 7 x = rspFrame a (regsOf x) := rfl

/-! ### The statements -/

/-- Settles O1: `RESET` is one record of writes; the strobe `rst` selects it whatever the other two are. -/
theorem resetGivesEveryElementItsResetValue : Obligations.ResetGivesEveryElementItsResetValue :=
  ⟨fun _ => ⟨_, rfl, rfl⟩, fun addr _ b smp => decode_edge_reset addr b smp⟩

/-- Settles O2: the state after reset, and this hardware's thresholds as numbers. -/
theorem resetStateHoldsTheListedValues : Obligations.ResetStateHoldsTheListedValues :=
  have ⟨hv, hi, hmin, hmax⟩ := default_thresholds_toInt
  ⟨rfl, rfl, rfl, rfl, rfl, rfl, rfl, rfl, rfl, rfl, hv, hi, hmin, hmax, rfl⟩

/-- Settles O9: the three branches of the receiver, and its frame. -/
theorem rxByteTakesExactlyOneBranch : Obligations.RxByteTakesExactlyOneBranch := by
  refine fun b s => ⟨fun hi => ?_, fun hi hf hn => ?_, fun hi hc => ?_, _, exec_rxByte b s, ?_⟩
  · rw [exec_rxByte, exec_addrFilter, receiveByte, if_pos hi]
  · rw [exec_rxByte, exec_collect_of_room b hn, receiveByte_of_collecting b hi ⟨hf, hn⟩]
  · rw [exec_rxByte, receiveByte_of_discarding b hi hc]
  · exact receiveByte_frame b s

/-- Settles O10: the two branches of the filter; the one store is at index 0. -/
theorem addressFilterOpensATransactionOrSignalsAMismatch :
    Obligations.AddressFilterOpensATransactionOrSignalsAMismatch := by
  refine fun b s => ⟨_, exec_addrFilter b s, fun ha => ?_, fun ha => ?_⟩
  · rw [filterByte, if_pos ha]
    exact ⟨rfl, memRead_memStore_same _ b (by decide), fun i hi => memRead_memStore_other _ b hi⟩
  · rw [filterByte, if_neg ha]

/-- Settles O13: each of the seven is `giveResult` of its function's value. -/
theorem functionOperationsCompleteWithTheirValue : Obligations.FunctionOperationsCompleteWithTheirValue :=
  fun _ _ _ _ _ _ _ _ => ⟨rfl, rfl, rfl, rfl, rfl, rfl, rfl⟩

/-- Settles O24: `transmitBytes` is exactly these two writes. -/
theorem transmitEnablesTheLineAroundTheBytes : Obligations.TransmitEnablesTheLineAroundTheBytes := fun _ _ => rfl

/-- Settles O25: the bytes sent are the response frame, whose length and decoding are known. -/
theorem responseFrameGoesOutOnTheLine : Obligations.ResponseFrameGoesOutOnTheLine := fun a regs _ hwf =>
  ⟨rspFrame a regs, rfl, rspFrame_length a regs, decodeRsp_rspFrame a (of_decide_eq_true hwf)⟩

/-- Settles O26: in both cases the response carries all seven registers. -/
theorem fullResponseHasNineteenBytesAndZeroResidue : Obligations.FullResponseHasNineteenBytesAndZeroResidue := by
  intro a mode q x hfull
  have hcount : respCount mode q = 7 := by
    rcases hfull with rfl | rfl
    · cases mode <;> rfl
    · exact respCount_fixed7 q
  rw [hcount, respBuild_seven]
  exact ⟨rspFrame_length a (regsOf x), (getElem?_rspFrame_header a (regsOf x)).2.2, crcOf_appendCrc _⟩

/-- Settles O28: `driveProtection` is exactly these two writes. -/
theorem driveOutputsSetsComplementaryOutputs : Obligations.DriveOutputsSetsComplementaryOutputs := fun _ _ => rfl

/-- Settles O29: the outputs are driven with the decision on the sample set. -/
theorem sampleLoadStoresJudgesAndHandsOver : Obligations.SampleLoadStoresJudgesAndHandsOver :=
  ⟨fun smp s hseq => ⟨protectDecision s.cfg smp, protectDecision_iff_outsideThresholds s.cfg smp,
      exec_sampleLoad_of_ready smp hseq⟩,
    fun smp _ => exec_sampleLoad_of_service smp, decode_edge_sampleLoad⟩

/-- Settles O31: `REARM` is three writes, `RECOVER` the same three after the log entry. -/
theorem recoverAndRearmReturnToListening : Obligations.RecoverAndRearmReturnToListening := fun _ => ⟨rfl, rfl⟩

/-- Settles O32: the service is enabled, and takes its branch by `frame_signal`. -/
theorem serviceWithoutAFrame : Obligations.ServiceWithoutAFrame := by
  refine fun s hseq => ⟨fun hf => ?_, fun hf => ?_⟩
  · rw [exec_service_of_no_frame hseq (by simp [hf]), serviceBody, hf]
  · rw [exec_service_of_no_frame hseq (by simp [hf]), serviceBody, hf]
    rfl

/-- Settles O36: each guard fails, and its fault names the hold. -/
theorem heldStepsStopByName : Obligations.HeldStepsStopByName := by
  refine ⟨fun s hseq hf hn => ?_, fun s hseq => ?_, fun s smp => exec_cycle_of_service smp,
    fun s b => exec_collect_of_full b⟩
  · rw [exec_service_of_held fun h => h.2 ⟨hf, hn⟩, serviceHoldFault_of_service hseq]
  · rw [exec_service_of_held (by simp [hseq]), serviceHoldFault_of_sample hseq]

/-- Settles O47: the step by its stimulus; MAIN's own turn is `SERVICE` with its hold. -/
theorem stepRunsTheDecodedOperation : Obligations.StepRunsTheDecodedOperation := by
  refine ⟨fun s st more left i hs hd => ⟨fun hen => ?_, fun hen => ?_⟩, fun s st more hs hd => step_of_rejected hs hd,
    fun s hs _ => ?_, fun s hs hheld => ?_⟩
  · rw [step_of_decoded hs hd, present, enabled_stim, if_pos hen]
  · rw [step_of_decoded hs hd, present, enabled_stim, if_neg (by simp [hen])]
  · rw [step_of_no_stimulus hs, mainTurn_eq_exec_service]
  · rw [step_of_no_stimulus hs, mainTurn_eq_exec_service, exec_service_of_held hheld, serviceHoldFault]

end Sys2Proof.Machine
end

section
/-! PROOF. The hold of an incomplete frame (46_main_cycle.md section 2, R116): it freezes the outputs, and the bytes that
complete the frame lift it. -/

namespace Sys2Proof.Machine

open Laws.InputEncoding

/-! ### Outputs and registers -/

/-- The two outputs and the registers they were judged from. -/
def judgedOutputs (s : State) : Bool × Bool × SampleSet := (s.faultEn, s.normalEn, s.x)

theorem leaves_judgedOutputs (w : Writer) (h : w ∉ [.sampleLoad, .driveOutputs, .reset]) : w.Leaves judgedOutputs := by
  cases w <;> simp [Writer.Leaves, Writer.Keeps, judgedOutputs] at h ⊢

/-- Of the operations a step can run only a reset and the two that load samples touch the outputs. -/
theorem runsNone_of_not_load {i : Instr} (hp : presentable i = true) (hreset : i ≠ .reset)
    (hload : ∀ smp, i ≠ .sampleLoad smp ∧ i ≠ .cycle smp) : RunsNone i [.sampleLoad, .driveOutputs, .reset] := by
  cases i with
  | rir | badCrc | unsupported | foreign | incomplete | rxByte | service | req =>
    simp [RunsNone, writersIn, byteWriters, serviceWriters]
  | reset => exact absurd rfl hreset
  | sampleLoad smp => exact absurd rfl (hload smp).1
  | cycle smp => exact absurd rfl (hload smp).2
  | rsp | addrFilter | collect | crc16Init | crc16Update | crc16 | crcCheck | validate | respBuild | transmit | protect
  | driveOutputs | recover | rearm => cases hp

/-- While `SERVICE` is due no sample load is enabled (R99). -/
theorem ne_load_of_enabled {s : State} {i : Instr} (hseq : s.seq = .service) (hen : Enabled s i = true)
    (smp : SampleSet) : i ≠ .sampleLoad smp ∧ i ≠ .cycle smp := by
  constructor <;> rintro rfl <;> simp [Enabled, SmpReady, hseq] at hen

/-- Only the strobe `rst` resets. -/
theorem getLsbD_of_decode_reset {addr : Byte} {st : Stim} {left : List Stim}
    (h : decode addr st = .ok (.reset, left)) : ∃ ev b smp, st = .edge ev b smp ∧ ev.getLsbD 2 = true := by
  cases st with
  | edge ev b smp =>
    rcases decode_edge_cases addr ev b smp with ⟨hrst, _⟩ | he | he | he | ⟨_, he⟩
    · exact ⟨ev, b, smp, rfl, hrst⟩
    all_goals rw [he] at h; cases h
  | line a rest =>
    rcases decode_line_cases addr a rest with ⟨_, he⟩ | ⟨_, _, he⟩ | ⟨f, more, _, he⟩ <;> rw [he] at h
    · cases h
    · cases h
    · rw [classOf_eq] at h
      split at h
      · cases h
      · split at h <;> cases h
  | cycle | req => cases h

/-! ### A run over received bytes -/

theorem receiveByte_with_stim (b : Byte) (s : State) (l : List Stim) :
    receiveByte b { s with stim := l } = { receiveByte b s with stim := l } := by
  unfold receiveByte filterByte collectByte
  split
  · split <;> rfl
  · split <;> rfl

/-- A run over bytes presented one by one receives them. -/
theorem run_rxBytes (bs : List Byte) (smp : SampleSet) {s : State}
    (hs : s.stim = bs.map fun b => Stim.edge 0b010#3 b smp) :
    Host.Core.run core bs.length s = .next (receiveBytes bs { s with stim := [] }) := by
  induction bs generalizing s with
  | nil =>
    have hself : { s with stim := [] } = s := by rw [← show s.stim = [] from hs]
    rw [receiveBytes_nil, hself]
    rfl
  | cons b bs ih =>
    have hstep : step s = .next { receiveByte b s with stim := bs.map fun b => Stim.edge 0b010#3 b smp } := by
      rw [step_of_decoded hs (decode_edge_rxByte _ b smp), ← receiveByte_with_stim]
      rfl
    rw [List.length_cons, core_run_next _ hstep, ih rfl, receiveBytes_cons, receiveByte_with_stim b s []]

/-! ### The statements -/

/-- Settles O58: a held service leaves no step but received bytes, frame classes and resets; none but a reset writes the
outputs or the registers. -/
theorem incompleteFrameFreezesTheOutputs : Obligations.IncompleteFrameFreezesTheOutputs := by
  intro s t hseq hpartial hrst ht
  suffices hout : judgedOutputs t = judgedOutputs s by
    simpa [judgedOutputs] using hout
  rcases step_cases s with ⟨_, he⟩ | ⟨st, more, i, left, hs, hd, hen, he⟩ | ⟨st, more, i, left, _, _, _, he⟩ |
    ⟨st, more, r, _, _, he⟩ <;> rw [he] at ht
  · rw [mainTurn_eq_exec_service, exec_service_of_held fun h => h.2 hpartial] at ht
    cases ht
  · have hreset : i ≠ .reset := by
      rintro rfl
      obtain ⟨ev, b, smp, rfl, hev⟩ := getLsbD_of_decode_reset hd
      rw [hrst ev b smp more hs] at hev
      cases hev
    have hruns := runsNone_of_not_load (decode_presentable hd) hreset (ne_load_of_enabled hseq hen)
    exact (exec_leaves leaves_judgedOutputs ht hruns).trans rfl
  · cases ht
    rfl
  · cases ht

/-- Settles O59: the run collects every byte, and the hold ends exactly at eight. -/
theorem remainingBytesLiftTheHold : Obligations.RemainingBytesLiftTheHold := by
  intro s bs smp hseq hf hi hn hs
  refine ⟨_, run_rxBytes bs smp hs, ?_⟩
  rw [receiveBytes_collected bs { s with stim := [] } hi hf hn]
  refine ⟨?_, rfl, rfl, rfl⟩
  have hcnt : (BitVec.ofNat 4 (s.byteCnt.toNat + bs.length)).toNat = s.byteCnt.toNat + bs.length := by
    rw [BitVec.toNat_ofNat]; omega
  simp only [ServiceEnabled, PartialFrame, hseq, hf, hcnt, reqLen, true_and, not_lt]
  omega

end Sys2Proof.Machine
end

section
/-! PROOF. Requests on the line (30_encoding.md R49, 42_frame_validator.md, 40_frame_receiver.md section 5): a frame class is
its bytes and then the service, and what each class does to a listening block. -/

namespace Sys2Proof.Machine

/-! ### A class as its bytes and its service -/

/-- A class is the transaction of the bytes it is encoded by (log 3). -/
theorem exec_of_encode_line {i : Instr} {b : Byte} {rest : List Byte} (h : encode i = some (.line b rest)) (s : State) :
    exec i s = transact (b :: rest) s := by
  cases i with
  | rir | badCrc | unsupported | foreign | incomplete => cases h; rfl
  | rsp | reset | rxByte | sampleLoad | service | cycle | req | addrFilter | collect | crc16Init | crc16Update | crc16
  | crcCheck | validate | respBuild | transmit | protect | driveOutputs | recover | rearm => cases h

theorem transact_of_enabled {bs : List Byte} {s : State} (h : ServiceEnabled (receiveBytes bs s)) :
    transact bs s = exec .service (receiveBytes bs s) :=
  (exec_service_of_enabled h).symm

theorem transact_of_held {bs : List Byte} {s : State} (h : ¬ ServiceEnabled (receiveBytes bs s)) :
    transact bs s = .next (receiveBytes bs s) :=
  serviceIfEnabled_of_held h

theorem not_serviceEnabled_of_sample {s : State} (h : s.seq = .sample) : ¬ ServiceEnabled s := by
  simp [h]

/-! ### A listening block -/

/-- A listening block is a rearmed one, so that rearming or recovering it writes nothing new to its receiver. -/
theorem exists_rearmReceiver_eq {s : State} (h : Listening s) : ∃ u, rearmReceiver u = s := by
  obtain ⟨hirq, hidle, hcnt⟩ := h
  refine ⟨s, ?_⟩
  rw [rearmReceiver, ← hirq, ← hidle, ← hcnt]

/-- `s` with a complete request in the buffer, waiting for its service. -/
def holdingRequest (m : Memory) (s : State) : State :=
  { s with rxIrqEn := false, frameSignal := .framePending, byteCnt := 8#4, frameBuf := m }

/-- Before MAIN's turn a request for this slave stands in the buffer and waits (R114 corner case c). -/
theorem transact_request_waits {f : Frame} {s : State} (hl : Listening s) (ha : f.address = s.cfg.slaveAddr)
    (hseq : s.seq = .sample) :
    ∃ m, transact (frameBytes f) s = .next (holdingRequest m s) ∧ readFrame m = .ok f := by
  obtain ⟨m, hm, hr⟩ := receiveBytes_request f s hl.1 ha
  refine ⟨m, ?_, hr⟩
  rw [transact, hm]
  exact serviceIfEnabled_of_held (s := holdingRequest m s) (not_serviceEnabled_of_sample hseq)

/-- On MAIN's turn a request for this slave is served as its verdict says (R114). -/
theorem transact_request_served {f : Frame} {s : State} (hl : Listening s) (ha : f.address = s.cfg.slaveAddr)
    (hseq : s.seq = .service) :
    ∃ m, transact (frameBytes f) s = .next { serveVerdict f (holdingRequest m s) with seq := .sample } ∧
      readFrame m = .ok f := by
  obtain ⟨m, hm, hr⟩ := receiveBytes_request f s hl.1 ha
  refine ⟨m, ?_, hr⟩
  rw [transact, hm]
  exact serviceIfEnabled_complete (s := holdingRequest m s) hseq rfl rfl hr

/-! ### The verdict on each class -/

theorem verdictOf_of_wf_rir {addr a : Byte} {ss qq : Half} {lo hi : Byte}
    (h : Instr.wf addr (.rir a ss qq lo hi) = true) : verdictOf (mkFrame a funcRir ss qq lo hi) = .accept qq := by
  obtain ⟨_, hcrc, hq⟩ := (wf_rir_iff ..).1 h
  have hfields : ¬ unsupportedFields (mkFrame a funcRir ss qq lo hi) = true := by
    simpa [unsupportedFields_mkFrame] using hq
  rw [verdictOf, if_pos hcrc, if_neg hfields, quantityOf_mkFrame]

theorem verdictOf_of_wf_badCrc {addr a f : Byte} {ss qq : Half} {lo hi : Byte}
    (h : Instr.wf addr (.badCrc a f ss qq lo hi) = true) : verdictOf (mkFrame a f ss qq lo hi) = .crcMismatch := by
  obtain ⟨_, hcrc⟩ := (wf_badCrc_iff ..).1 h
  rw [verdictOf, if_neg (by simp [hcrc])]

theorem verdictOf_of_wf_unsupported {addr a f : Byte} {ss qq : Half} {lo hi : Byte}
    (h : Instr.wf addr (.unsupported a f ss qq lo hi) = true) :
    verdictOf (mkFrame a f ss qq lo hi) = .unsupportedRequest qq f := by
  obtain ⟨_, hcrc, hfields⟩ := (wf_unsupported_iff ..).1 h
  rw [verdictOf, if_pos hcrc, if_pos ((unsupportedFields_mkFrame ..).2 hfields), quantityOf_mkFrame, mkFrame]

/-! ### Bytes for another slave, and too few bytes -/

/-- A frame for another slave leaves the mismatch alone (R68, R70). -/
theorem receiveBytes_foreign {a : Byte} (rest : List Byte) {s : State} (hl : Listening s) (ha : a ≠ s.cfg.slaveAddr) :
    receiveBytes (a :: rest) s = { s with rxIrqEn := false, frameSignal := .addressMismatch } := by
  have hcnt : s.byteCnt = 0#4 := hl.2.2
  rw [receiveBytes_cons, receiveByte_of_mismatch hl.1 ha, ← hcnt]
  exact receiveBytes_discarded rest _ rfl (by simp)

/-- Up to eight bytes for this slave are stored from index 0 on and counted (R68, R69). -/
theorem receiveBytes_open {a : Byte} {rest : List Byte} {s : State} (hl : Listening s) (ha : a = s.cfg.slaveAddr)
    (hn : rest.length + 1 ≤ reqLen) :
    receiveBytes (a :: rest) s = { s with
      rxIrqEn := false, frameSignal := .framePending, byteCnt := BitVec.ofNat 4 (rest.length + 1),
      frameBuf := storeFrom s.frameBuf 0 (a :: rest) } := by
  rw [receiveBytes_cons, receiveByte_of_match hl.1 ha,
    receiveBytes_collected rest _ rfl rfl (by simpa [Nat.add_comm] using hn)]
  simp [storeFrom, Nat.add_comm]

theorem memRead_congr {m n : Memory} {i : Nat} (h : memLookup m i = memLookup n i) : memRead m i = memRead n i := by
  rw [memRead, memRead, h]

/-! ### The statements -/

/-- Settles O60: the state between the bytes and the service is the one the bytes lead to. -/
theorem frameClassesAreTheirBytesThenTheService : Obligations.FrameClassesAreTheirBytesThenTheService := by
  intro i b rest s h
  have hexec := exec_of_encode_line h s
  exact ⟨receiveBytes (b :: rest) s, rxBytes_receiveBytes _ s, fun hen => hexec.trans (transact_of_enabled hen),
    fun hheld => hexec.trans (transact_of_held hheld)⟩

/-- Settles O38: the eight bytes are those of a frame that carries its own CRC. -/
theorem reqDeliversARequestWithItsCrc : Obligations.ReqDeliversARequestWithItsCrc := by
  rintro a f ss qq _ _ s rfl rfl
  refine ⟨⟨_, rfl, rxBytes_receiveBytes _ s, receiveBytes_frame _ s⟩, fun hl ha => ?_⟩
  obtain ⟨m, hm, hr⟩ := receiveBytes_request (reqFrame a f ss qq) s hl.1 ha
  exact ⟨holdingRequest m s, reqFrame a f ss qq, congrArg Host.Outcome.next hm, rfl, rfl, rfl, hr, rfl, rfl,
    joinBytes_hi_lo ss, joinBytes_hi_lo qq, joinBytes_hi_lo _⟩

/-- Settles O39: the accepted request is answered with `respCount` registers. -/
theorem readRequestIsAnsweredOnce : Obligations.ReadRequestIsAnsweredOnce := by
  intro a ss qq lo hi s hwf hl hseq
  obtain ⟨ha, _⟩ := (wf_rir_iff ..).1 hwf
  obtain ⟨m, ht, hr⟩ := transact_request_served (f := mkFrame a funcRir ss qq lo hi) hl ha hseq
  rw [serveVerdict_of_accept _ (verdictOf_of_wf_rir hwf)] at ht
  obtain ⟨u, rfl⟩ := exists_rearmReceiver_eq hl
  refine ⟨_, respCount u.cfg.respCountMode qq, fun hmode => ?_, fun hmode => ?_, ht, rfl, hr⟩
  · rw [show u.cfg.respCountMode = .requested from hmode, respCount_requested]
  · rw [show u.cfg.respCountMode = .fixed7 from hmode, respCount_fixed7]

/-- Settles O40: the verdict is a CRC mismatch, whose handler only rearms. -/
theorem badCrcRequestIsDroppedSilently : Obligations.BadCrcRequestIsDroppedSilently := by
  intro a f ss qq lo hi s hwf hl hseq
  obtain ⟨ha, _⟩ := (wf_badCrc_iff ..).1 hwf
  obtain ⟨m, ht, hr⟩ := transact_request_served (f := mkFrame a f ss qq lo hi) hl ha hseq
  rw [serveVerdict_of_crcMismatch _ (verdictOf_of_wf_badCrc hwf)] at ht
  obtain ⟨u, rfl⟩ := exists_rearmReceiver_eq hl
  exact ⟨_, ht, rfl, hr⟩

/-- Settles O41: the verdict is an unsupported request, whose handler recovers the receiver. -/
theorem unsupportedRequestResetsTheReceiver : Obligations.UnsupportedRequestResetsTheReceiver := by
  intro a f ss qq lo hi s hwf hl hseq
  obtain ⟨ha, _⟩ := (wf_unsupported_iff ..).1 hwf
  obtain ⟨m, ht, hr⟩ := transact_request_served (f := mkFrame a f ss qq lo hi) hl ha hseq
  rw [serveVerdict_of_unsupportedRequest _ (verdictOf_of_wf_unsupported hwf)] at ht
  obtain ⟨u, rfl⟩ := exists_rearmReceiver_eq hl
  exact ⟨_, ht, rfl, hr⟩

/-- Settles O42: the bytes leave only the mismatch, which the service reports and recovers from. -/
theorem foreignFrameIsDiscardedAndRecovered : Obligations.ForeignFrameIsDiscardedAndRecovered := by
  intro a rest s hwf hl
  have hrx := receiveBytes_foreign rest hl ((wf_foreign_iff ..).1 hwf)
  have hexec : exec (.foreign a rest) s = transact (a :: rest) s := rfl
  refine ⟨fun hseq => ?_, fun hseq => ?_⟩
  · have hen : ServiceEnabled (receiveBytes (a :: rest) s) := by rw [hrx]; exact ⟨hseq, nofun⟩
    rw [hexec, transact_of_enabled hen, (serviceWithoutAFrame _ hen.1).2 (by rw [hrx]), hrx]
    obtain ⟨u, rfl⟩ := exists_rearmReceiver_eq hl
    rfl
  · rw [hexec, transact_of_held (by rw [hrx]; exact not_serviceEnabled_of_sample hseq), hrx]

/-- Settles O43: fewer than eight bytes are stored from index 0 on, and their count holds the service. -/
theorem incompleteFrameHoldsTheService : Obligations.IncompleteFrameHoldsTheService := by
  intro a rest s hwf hl
  obtain ⟨ha, hn⟩ := (wf_incomplete_iff ..).1 hwf
  have hrx := receiveBytes_open (rest := rest) hl ha (by simp only [reqLen]; omega)
  have hheld : ¬ ServiceEnabled (receiveBytes (a :: rest) s) := by
    have hcnt : (BitVec.ofNat 4 (rest.length + 1)).toNat = rest.length + 1 := by rw [BitVec.toNat_ofNat]; omega
    rw [hrx]
    exact fun h => h.2 ⟨rfl, by simp only [hcnt, reqLen]; omega⟩
  have hlookup (i : Nat) : memLookup (receiveBytes (a :: rest) s).frameBuf i =
      ((a :: rest)[i]?).or (memLookup s.frameBuf i) := by
    rw [hrx]
    exact (memLookup_storeFrom s.frameBuf 0 (a :: rest) i).trans (if_pos (Nat.zero_le i))
  refine ⟨_, transact_of_held hheld, by rw [hrx], fun i v hv => ?_, fun i hi => ?_, hheld⟩
  · have hlt : i < rest.length + 1 := (List.getElem?_eq_some_iff.1 hv).1
    refine (memRead_ok_iff _ _ _).2 ⟨by simp only [reqLen]; omega, ?_⟩
    rw [hlookup, hv, Option.some_or]
  · have hnone : (a :: rest)[i]? = none := List.getElem?_eq_none (by simpa using hi)
    exact memRead_congr (by rw [hlookup, hnone, Option.none_or])

/-- Settles O44: each of the three classes is the transaction of the same eight bytes. -/
theorem requestWaitsForItsService : Obligations.RequestWaitsForItsService := by
  intro a f ss qq lo hi s i hclass ha hl hseq
  have hexec : exec i s = transact (frameBytes (mkFrame a f ss qq lo hi)) s := by
    rcases hclass with rfl | rfl | ⟨rfl, rfl⟩ <;> rfl
  obtain ⟨m, ht, hr⟩ := transact_request_waits (f := mkFrame a f ss qq lo hi) hl ha hseq
  exact ⟨_, hexec.trans ht, rfl, hr⟩

/-- Settles O45: both requests are accepted with the same quantity, and the response names only address, quantity and
registers; or both wait. -/
theorem startAddressIsIgnored : Obligations.StartAddressIsIgnored := by
  intro a ss ss' qq lo hi lo' hi' s hwf hwf' hl
  obtain ⟨ha, _⟩ := (wf_rir_iff ..).1 hwf
  cases hseq : s.seq with
  | sample =>
    obtain ⟨m, ht, _⟩ := transact_request_waits (f := mkFrame a funcRir ss qq lo hi) hl ha hseq
    obtain ⟨m', ht', _⟩ := transact_request_waits (f := mkFrame a funcRir ss' qq lo' hi') hl ha hseq
    exact ⟨_, _, ht, ht', rfl⟩
  | service =>
    obtain ⟨m, ht, _⟩ := transact_request_served (f := mkFrame a funcRir ss qq lo hi) hl ha hseq
    obtain ⟨m', ht', _⟩ := transact_request_served (f := mkFrame a funcRir ss' qq lo' hi') hl ha hseq
    rw [serveVerdict_of_accept _ (verdictOf_of_wf_rir hwf)] at ht
    rw [serveVerdict_of_accept _ (verdictOf_of_wf_rir hwf')] at ht'
    exact ⟨_, _, ht, ht', rfl⟩

/-- Settles O46: in either mode a request for seven registers is answered with all seven, as just loaded. -/
theorem readReturnsTheLoadedSampleSet : Obligations.ReadReturnsTheLoadedSampleSet := by
  intro smp ss lo hi s hwf hl hseq
  obtain ⟨u, n, hreq, hfix, hu, hstate, _⟩ :=
    readRequestIsAnsweredOnce s.cfg.slaveAddr ss 7#16 lo hi (loadSamples smp s) hwf hl rfl
  have hn : n = 7 := by
    cases hmode : s.cfg.respCountMode with
    | requested => exact hreq hmode
    | fixed7 => exact hfix hmode
  refine ⟨_, u, respBuild s.cfg.slaveAddr n smp, exec_sampleLoad_of_ready smp hseq, hu, by rw [hstate]; rfl, ?_⟩
  rw [hn, respBuild_seven]
  exact decodeRsp_rspFrame s.cfg.slaveAddr (regsOf_length smp).le

end Sys2Proof.Machine
end
